-- ==== Sys2Proof/Word.lean ====
section
/-! DEFINITION. The word types of the block (00 R10: every multi-byte value is little-endian) and the
sparse table that holds memories and register files as plain data. -/

namespace Sys2Proof

/-- One byte of a page, a slot or a datagram. -/
abbrev Byte := BitVec 8

/-- A 32-bit register of Table 17.7. -/
abbrev Word := BitVec 32

/-- A 64-bit word of shed memory or of a die-link packet (01, R33). -/
abbrev DWord := BitVec 64

/-- Sparse data by number, keys strictly rising and no entry equal to what an unlisted key reads as. -/
abbrev Table (α : Type) := List (Nat × α)

end Sys2Proof
end

