-- ==== Sys2Proof/Syntax.lean ====
section
/-! DEFINITION. The commands of the block: one constructor per row of spec/opcode_table.json. The first operand
`t` of every command is the instant at which it happens, in nanoseconds (log entry 1). A shed is named by its index,
a JHP command by the mailbox whose queue holds it (log entry 3), a die-link reception by the sequence number and the
state of the word on arrival (log entry 5). Measurements that come from outside the block are operands. -/

namespace Sys2Proof

/-- State of a die-link word on arrival (01, R33). -/
inductive WordErr where
  | clean
  | corrected
  | uncorrectable
  deriving DecidableEq, Repr

/-- State of a die-link packet on arrival (01, R33): how many of its words were corrected, and how many were uncorrectable. -/
structure PacketErr where
  fixed : Nat
  bad : Nat
  deriving DecidableEq, Repr

/-- State of a PREPARE on arrival: of its words, and a word of the shed's back buffers that fails its SECDED check, if one does (05, R157). -/
structure PrepareErr extends PacketErr where
  badWord : Option Nat
  deriving DecidableEq, Repr

/-- A shed that fires a mark, and the grey clocks that it has counted since the mark before (01, R31). -/
structure FiredMark where
  shed : Fin 7
  clocks : Nat
  deriving DecidableEq, Repr

/-- A session's source (10, Table 10.1 and R276; 11, R321 and R329). -/
inductive Source where
  /-- The SPI target port. -/
  | spit
  /-- IPv4 address, UDP source port and ingress port together (R321). -/
  | udp (port : Fin 2) (ip : Word) (sport : BitVec 16)
  /-- Source `k` of CAN FD controller `c` (R329). -/
  | can (c : Fin 2) (k : Fin 8)
  deriving DecidableEq, Repr

/-- One current pulse of a sink, as the shed measured it (03 R110, 07 R207, 08 R226). Voltages in millivolts. -/
structure PulseObs where
  ch : Nat
  row : Nat
  /-- On-time of the pulse in grey clocks. -/
  clocks : Nat
  /-- Amplitude code of the pulse. -/
  code : Nat
  /-- Sink voltage at the end of the pulse. -/
  sink : Nat
  /-- Sink voltage 10 grey clocks before the end (Table 8.1). -/
  sinkEarly : Nat
  /-- Anode voltage at the same instant as `sink`. -/
  anode : Nat
  deriving DecidableEq, Repr

/-- One off-state observation (08 R227, R228). -/
structure OffObs where
  ch : Nat
  row : Nat
  /-- Sample after the pull-down phase. -/
  down : Nat
  /-- Sample after the pull-up phase. -/
  up : Nat
  /-- Supply reference of the site. -/
  ref : Nat
  deriving DecidableEq, Repr

/-- What the shed saw of one scan switch in a period (08 Table 8.4). -/
structure SwitchObs where
  sw : Nat
  /-- Voltage at the ball in the row slot (08 R228). -/
  volts : Nat
  /-- The ball was more than 2.0 V below its supply when commanded on. -/
  low : Bool
  /-- The ball was above 2.0 V when it should have been off. -/
  high : Bool
  deriving DecidableEq, Repr

/-- What the shed saw of one booster channel in a period (08 Table 8.4, R237). -/
structure BoosterObs where
  xc : Nat
  /-- Gate within 0.5 V of gate high within 100 ns of a pulse start. -/
  gateFast : Bool
  /-- Sense pin above 300 mV in the off-state test. -/
  senseHigh : Bool
  /-- On-time of the pulse in grey clocks. -/
  clocks : Nat
  /-- Sense voltage at the sample, microvolts. -/
  sense : Nat
  /-- Gate at gate high at the sample. -/
  gateHigh : Bool
  deriving DecidableEq, Repr

/-- The measurements of one PWM period of a shed. -/
structure PeriodObs where
  pulses : List PulseObs
  offs : List OffObs
  switches : List SwitchObs
  boosters : List BoosterObs
  deriving DecidableEq, Repr

/-- What a debounce concerns (08 R230, R235). -/
inductive DiagObj where
  | site (i : Fin 2048) (off : Bool)
  | switch (r : Fin 16)
  | booster (n : Fin 8)
  deriving DecidableEq, Repr

/-- Readings of one shed's housekeeping round (09 Table 9.1). Temperatures in 1/16 K of °C, voltages in mV. -/
structure ShedReadings where
  die : Int
  /-- The four NTC codes. -/
  ntc : List Nat
  vls : List Nat
  vscan : List Nat
  logicLow : Bool
  logicHigh : Bool
  refOk : Bool
  deriving DecidableEq, Repr

/-- Readings of the yard's housekeeping round (09 Table 9.1). -/
structure YardReadings where
  core : Int
  memory : Int
  network : Int
  vbat : Nat
  vio : Nat
  vcore : Nat
  nwSupply : Nat
  refOk : Bool
  /-- Report-line self-test of the collector (15, detector 0x1F). -/
  linesOk : Bool
  deriving DecidableEq, Repr

/-- An Ethernet frame as the switch sees it (11, R316). -/
structure EthFrame where
  port : Fin 3
  dst : BitVec 48
  src : BitVec 48
  tagged : Bool
  vid : Nat
  pcp : Nat
  payload : List Byte
  /-- PLCA node in whose transmit opportunity the frame came, on port 1 (R314). -/
  node : Nat
  /-- The frame uses a part of the standard that is not supported (R311). -/
  unsupported : Bool
  /-- The frame is lost in a collision on the 10BASE-T1S segment (R314). -/
  collision : Bool
  deriving DecidableEq, Repr

/-- A UDP datagram delivered to the firmware (11, R320, R321). -/
structure Datagram where
  port : Fin 2
  mac : BitVec 48
  ip : Word
  dstIp : Word
  options : Bool
  fragment : Bool
  /-- The checksum of the IPv4 header is right. -/
  headerOk : Bool
  sport : BitVec 16
  dport : BitVec 16
  /-- UDP checksum zero or right (R320). -/
  sumOk : Bool
  body : List Byte
  deriving DecidableEq, Repr

/-- An ICMP echo request or an ARP request as delivered to the firmware (11, R320). -/
structure IpRequest where
  port : Fin 2
  mac : BitVec 48
  srcIp : Word
  dstIp : Word
  options : Bool
  fragment : Bool
  headerOk : Bool
  data : List Byte
  deriving DecidableEq, Repr

/-- A received CAN data frame (11, R329, R331). -/
structure CanFrame where
  id : Nat
  ide : Bool
  fdf : Bool
  data : List Byte
  deriving DecidableEq, Repr

/-- A memory with a scrubber (15, Table 15.5). The place of an uncorrectable word is a number of its memory; in the SRAM below 131,072 the
word of the window, 512 words a page; in the MRAM
2 × item + copy for the items of 16, 64 and 65 for firmware slots A and B, 66 and 67 for the accounting copies, 100 + n for Logbook slot
n, 40,000 + n for Tack Room slot n (log entry 6). -/
inductive ScrubMem where
  | sram
  | mram
  | shed (k : Fin 7)
  deriving DecidableEq, Repr

/-- A block that a reset shadow covers (15, Table 15.6). -/
inductive ShadowBlock where
  | shed (k : Fin 7)
  | yard
  | port (p : Fin 2)
  | spim (p : Fin 3)
  | paddock (e : Fin 2)
  deriving DecidableEq, Repr

/-- The commands, in the order of spec/opcode_table.json. -/
inductive Instr where
  -- frame mark and die links (01)
  | markWordSend (t : Nat) (copy : Fin 2)
  | yardFrameMark (t : Nat)
  | mark (t : Nat) (k : Fin 7) (err : WordErr) (fire : BitVec 16) (count : Word)
  | shedMarkFire (t : Nat) (k : FiredMark)
  | freeRunMark (t : Nat) (k : Fin 7)
  | greyClockLock (t : Nat) (k : Fin 7)
  | linkLatencyCalibration (t : Nat) (k : Fin 7) (lat : Byte)
  | linkTrained (t : Nat) (k : Fin 7) (lat : Byte) (r : ShedReadings)
  | linkTrainAttempt (t : Nat) (k : Fin 7)
  | write (t : Nat) (k : Fin 7) (seq : Byte) (err : PacketErr)
  | readReq (t : Nat) (k : Fin 7) (seq : Byte) (err : PacketErr)
  | readData (t : Nat) (k : Fin 7) (seq : Byte) (err : PacketErr)
  | prepare (t : Nat) (k : Fin 7) (seq : Byte) (err : PrepareErr)
  | prepareOk (t : Nat) (k : Fin 7) (seq : Byte) (err : PacketErr)
  | prepareFail (t : Nat) (k : Fin 7) (seq : Byte) (err : PacketErr)
  | frameStatus (t : Nat) (k : Fin 7) (seq : Byte) (err : PacketErr)
  | event (t : Nat) (k : Fin 7) (seq : Byte) (err : PacketErr)
  | commit (t : Nat) (k : Fin 7) (seq : Byte) (err : PacketErr)
  | abort (t : Nat) (k : Fin 7) (seq : Byte) (err : PacketErr)
  | patCtl (t : Nat) (k : Fin 7) (seq : Byte) (err : PacketErr)
  | derate (t : Nat) (k : Fin 7) (seq : Byte) (err : PacketErr)
  | failOff (t : Nat) (k : Fin 7) (seq : Byte) (err : PacketErr)
  | govern (t : Nat) (k : Fin 7) (seq : Byte) (err : PacketErr)
  | round (t : Nat) (k : Fin 7) (seq : Byte) (err : PacketErr)
  | fallback (t : Nat) (k : Fin 7) (seq : Byte) (err : PacketErr)
  | inject (t : Nat) (k : Fin 7) (seq : Byte) (err : PacketErr)
  | ack (t : Nat) (k : Fin 7) (atYard : Bool) (err : WordErr) (upTo : Byte)
  | nak (t : Nat) (k : Fin 7) (atYard : Bool) (err : WordErr) (expected : Byte)
  | heartbeat (t : Nat) (k : Fin 7) (atYard : Bool) (err : WordErr)
  | idleWord (t : Nat) (k : Fin 7) (atYard : Bool) (err : WordErr)
  | heartbeatSend (t : Nat) (k : Fin 7) (atYard : Bool)
  | heartbeatTimeout (t : Nat) (k : Fin 7) (atYard : Bool)
  | retryTimeout (t : Nat) (k : Fin 7) (atYard : Bool)
  -- output stage and placement (03, 04)
  | pwmPeriodEnd (t : Nat) (k : Fin 7) (obs : PeriodObs)
  | trimDropout (t : Nat) (k : Fin 7) (g : Fin 4)
  | placementStart (t : Nat) (k : Fin 7)
  | placerDone (t : Nat) (k : Fin 7) (us : Nat) (parityOk : Bool)
  | placerDeadline (t : Nat) (k : Fin 7)
  | spreadToLevel (t : Nat) (k : Fin 7) (g : Fin 4)
  | sinkOvervoltage (t : Nat) (k : Fin 7) (ch : Fin 128) (row : Fin 16)
  | scanOvercurrentTrip (t : Nat) (k : Fin 7) (r : Fin 16)
  | boosterOvercurrent (t : Nat) (k : Fin 7) (n : Fin 8)
  -- lamp diagnostics (08)
  | debounceComplete (t : Nat) (k : Fin 7) (o : DiagObj)
  | freshnessExpiry (t : Nat) (k : Fin 7) (i : Fin 2048) (off : Bool)
  | probeDebtDrop (t : Nat) (k : Fin 7) (i : Fin 2048)
  -- pattern engines (06)
  | keyframeEnd (t : Nat) (k : Fin 7) (e : Fin 16)
  | phaseDelayEnd (t : Nat) (k : Fin 7) (e : Fin 16)
  | fadeEnd (t : Nat) (k : Fin 7) (e : Fin 16)
  | engineCheckpoint (t : Nat) (k : Fin 7)
  -- rounds, retests, captures (07 to 09)
  | shedRoundComplete (t : Nat) (k : Fin 7) (r : ShedReadings)
  | retestEvaluation (t : Nat)
  | ltCalCaptureEnd (t : Nat)
  | housekeepingRound (t : Nat)
  | nvDeferredWrite (t : Nat)
  | armedRecordRewrite (t : Nat)
  | overtempTrip (t : Nat) (die : Fin 8)
  | deferredHotWrite (t : Nat)
  | hotRecordVerify (t : Nat) (readOk : Bool) (rewriteOk : Bool)
  | verdictMapPublish (t : Nat)
  | functionStateTableUpdate (t : Nat)
  | deviceStatusPageUpdate (t : Nat)
  -- commit rounds (05)
  | commitRoundStart (t : Nat)
  | commitTimeout (t : Nat)
  -- supplies, modes, resets (02)
  | supplyValid (t : Nat)
  | crystalStable (t : Nat)
  | pwrEnStartup (t : Nat)
  | stableLoadRetry (t : Nat)
  | firmwareStart (t : Nat)
  | powerOnReset (t : Nat)
  | railBrownout (t : Nat)
  | resetNAssert (t : Nat) (width : Nat)
  | resetNRelease (t : Nat)
  | watchdogExpiry (t : Nat)
  | powerFailDetected (t : Nat)
  | powerFailFlushDone (t : Nat)
  | vbatReturn (t : Nat) (lowest : Nat)
  | dipResume (t : Nat)
  | nwIdleTimeout (t : Nat)
  | nwFlushDone (t : Nat)
  | wakePinEvent (t : Nat) (p : Fin 4)
  | linkEnergyDetected (t : Nat)
  | wakeTimerExpiry (t : Nat)
  | wakeFrame (t : Nat) (payload : List Byte)
  | wakeFrameWindowExpiry (t : Nat)
  | pwrEnWakeRise (t : Nat)
  -- sessions, mailboxes, window, SPIT (10)
  | sessionOpen (t : Nat) (src : Source)
  | sessionClose (t : Nat) (n : Fin 16)
  | sessionKeepalive (t : Nat) (n : Fin 16)
  | sessionChallenge (t : Nat) (n : Fin 16)
  | sessionAuth (t : Nat) (n : Fin 16)
  | sessionDrop (t : Nat) (n : Fin 16)
  | sessionEvents (t : Nat) (n : Fin 16)
  | sessionInfo (t : Nat) (n : Fin 16)
  | pageTake (t : Nat) (n : Fin 16)
  | pageRelease (t : Nat) (n : Fin 16)
  | pageLock (t : Nat) (n : Fin 16)
  | pageUnlock (t : Nat) (n : Fin 16)
  | fnAcquire (t : Nat) (n : Fin 16)
  | fnRelease (t : Nat) (n : Fin 16)
  | leaseExpiry (t : Nat) (n : Fin 16)
  | doorbellRing (t : Nat) (n : Fin 16)
  | doorbellPendingCopy (t : Nat) (n : Fin 16)
  | replyAcknowledge (t : Nat) (n : Fin 16)
  | winDataWrite (t : Nat) (w : Word)
  | winDataRead (t : Nat)
  | frontRegisterWrite (t : Nat) (reg : Fin 16) (w : Word)
  | spitStatus (t : Nat) (mosi : List Byte) (part : Fin 8)
  | regRead (t : Nat) (mosi : List Byte) (part : Fin 8)
  | regWrite (t : Nat) (mosi : List Byte) (part : Fin 8)
  | mbxWrite (t : Nat) (mosi : List Byte) (part : Fin 8)
  | mbxRead (t : Nat) (mosi : List Byte) (part : Fin 8)
  | winWrite (t : Nat) (mosi : List Byte) (part : Fin 8)
  | winRead (t : Nat) (mosi : List Byte) (part : Fin 8)
  | spitRefusedType (t : Nat) (mosi : List Byte) (part : Fin 8)
  -- network (11)
  | ethernetFrame (t : Nat) (f : EthFrame)
  | learnedEntryAgeOut (t : Nat) (mac : BitVec 48) (vid : Nat)
  | t1LinkUp (t : Nat)
  | t1LinkDown (t : Nat)
  | plcaCycle (t : Nat)
  | nodePresenceTimeout (t : Nat) (node : Fin 32)
  | arpRequest (t : Nat) (r : IpRequest)
  | icmpEchoRequest (t : Nat) (r : IpRequest)
  | jhpCommandDatagram (t : Nat) (d : Datagram)
  | jhpAckDatagram (t : Nat) (d : Datagram)
  | replyResend (t : Nat) (n : Fin 16)
  | windowWriteDatagram (t : Nat) (d : Datagram)
  | windowReadDatagram (t : Nat) (d : Datagram)
  | windowReadDelayedCopy (t : Nat)
  -- CAN FD (11)
  | canJhpCommandFrame (t : Nat) (c : Fin 2) (f : CanFrame)
  | canJhpAckFrame (t : Nat) (c : Fin 2) (f : CanFrame)
  | canReplyResend (t : Nat) (n : Fin 16)
  | canDataFrame (t : Nat) (c : Fin 2) (f : CanFrame)
  | canBusOff (t : Nat) (c : Fin 2) (tec : Byte)
  | canBusOffRecovered (t : Nat) (c : Fin 2)
  | canErrPassive (t : Nat) (c : Fin 2) (tec : Byte) (rec : Byte)
  | canValueTimeout (t : Nat) (c : Fin 2) (i : Fin 64)
  | canStatusTx (t : Nat) (c : Fin 2) (i : Fin 64)
  | canMapLoad (t : Nat) (n : Fin 16)
  | canRestart (t : Nat) (n : Fin 16)
  -- SPI controller ports (12)
  | spimConfig (t : Nat) (n : Fin 16)
  | spimXfer (t : Nat) (n : Fin 16) (miso : List Word)
  | spimXferPage (t : Nat) (n : Fin 16) (miso : List Word)
  | spimReset (t : Nat) (n : Fin 16)
  | spimStatus (t : Nat) (n : Fin 16)
  | xipConfig (t : Nat) (n : Fin 16)
  | spimXipCopy (t : Nat) (n : Fin 16) (flash : List Byte)
  | spimTransferDone (t : Nat) (p : Fin 3)
  | spimHoldTimeout (t : Nat) (p : Fin 3)
  | xipCopyDone (t : Nat)
  -- Paddock lanes (13)
  | nop (t : Nat) (g : Fin 16)
  | br (t : Nat) (g : Fin 16) (pins : BitVec 24)
  | hold (t : Nat) (g : Fin 16) (pins : BitVec 24)
  | sho (t : Nat) (g : Fin 16)
  | shi (t : Nat) (g : Fin 16) (pins : BitVec 24)
  | lvl (t : Nat) (g : Fin 16)
  | dir (t : Nat) (g : Fin 16)
  | ld (t : Nat) (g : Fin 16) (pins : BitVec 24)
  | give (t : Nat) (g : Fin 16)
  | take (t : Nat) (g : Fin 16)
  | flag (t : Nat) (g : Fin 16)
  | paddockEventAccept (t : Nat) (ev : Fin 64)
  | pkTxQueueMove (t : Nat) (g : Fin 16)
  | pkRxQueueMove (t : Nat) (g : Fin 16)
  | pkLoad (t : Nat) (n : Fin 16)
  | pkStore (t : Nat) (n : Fin 16)
  | pkPinConfig (t : Nat) (n : Fin 16)
  | pkStart (t : Nat) (n : Fin 16)
  | pkStop (t : Nat) (n : Fin 16)
  | pkReset (t : Nat) (n : Fin 16)
  | pkPush (t : Nat) (n : Fin 16)
  | pkPull (t : Nat) (n : Fin 16)
  | pkStatus (t : Nat) (n : Fin 16)
  -- scenes, patterns, functions, lamp temperature (05 to 08)
  | sceneCommit (t : Nat) (n : Fin 16)
  | sceneRecall (t : Nat) (n : Fin 16)
  | sceneReadback (t : Nat) (n : Fin 16)
  | sceneStore (t : Nat) (n : Fin 16)
  | patLoad (t : Nat) (n : Fin 16)
  | patStart (t : Nat) (n : Fin 16)
  | patStop (t : Nat) (n : Fin 16)
  | patTrigger (t : Nat) (n : Fin 16)
  | patReset (t : Nat) (n : Fin 16)
  | patStatus (t : Nat) (n : Fin 16)
  | fnClear (t : Nat) (n : Fin 16)
  | ltRead (t : Nat) (n : Fin 16)
  | ltCalCapture (t : Nat) (n : Fin 16)
  | ltCalStatus (t : Nat) (n : Fin 16)
  | ltCalCommit (t : Nat) (n : Fin 16)
  | ltCalWrite (t : Nat) (n : Fin 16)
  | thermClear (t : Nat) (n : Fin 16)
  | nwEnter (t : Nat) (n : Fin 16)
  -- Logbook, Tack Room, accounting (14)
  | logCursor (t : Nat) (n : Fin 16)
  | logFetch (t : Nat) (n : Fin 16)
  | logFlush (t : Nat) (n : Fin 16)
  | logClear (t : Nat) (n : Fin 16)
  | logSetWall (t : Nat) (n : Fin 16)
  | logRateSet (t : Nat) (n : Fin 16)
  | tackFetch (t : Nat) (n : Fin 16)
  | lampReset (t : Nat) (n : Fin 16)
  | logFlushPeriodic (t : Nat)
  | logFlushUrgent (t : Nat)
  | tackSnapshotWrite (t : Nat)
  | accountingSave (t : Nat)
  | operatingSecond (t : Nat)
  | nvItemWrite (t : Nat) (verifyOk : Bool)
  -- management and faults (15 to 17)
  | fwStatus (t : Nat) (n : Fin 16)
  | fwInstallBegin (t : Nat) (n : Fin 16)
  | fwInstallWrite (t : Nat) (n : Fin 16)
  | fwInstallFinish (t : Nat) (n : Fin 16)
  | fwInstallAbort (t : Nat) (n : Fin 16)
  | fwActivate (t : Nat) (n : Fin 16)
  | fwSvnRaise (t : Nat) (n : Fin 16)
  | cfgRead (t : Nat) (n : Fin 16)
  | cfgWrite (t : Nat) (n : Fin 16)
  | cfgSave (t : Nat) (n : Fin 16)
  | idRead (t : Nat) (n : Fin 16)
  | keyNonce (t : Nat) (n : Fin 16)
  | keySet (t : Nat) (n : Fin 16)
  | keyStatus (t : Nat) (n : Fin 16)
  | warmReset (t : Nat) (n : Fin 16)
  | shedReset (t : Nat) (n : Fin 16)
  | portReset (t : Nat) (n : Fin 16)
  | faultStatus (t : Nat) (n : Fin 16)
  | faultClear (t : Nat) (n : Fin 16)
  | faultInject (t : Nat) (n : Fin 16)
  | linkStatus (t : Nat) (n : Fin 16)
  | faultRaise (t : Nat) (det : Fin 32) (die : Fin 8)
  | resetShadowEnd (t : Nat) (b : ShadowBlock)
  | injectionTimeout (t : Nat)
  | scrubPass (t : Nat) (m : ScrubMem) (corrections : Nat) (bad : Option Nat)
  | sramTestWordRead (t : Nat)
  | cryptoSelfTestDone (t : Nat) (pass : Bool)
  | spitPartialCommandByte (t : Nat) (bits : Fin 8)
  | wakePinInactive (t : Nat) (p : Fin 4)
  | nwOscillatorInBand (t : Nat)
  | yardRoundConversionsComplete (t : Nat) (r : YardReadings)
  deriving DecidableEq, Repr

/-- The shed that a scrubbed memory belongs to. -/
def ScrubMem.shedOf : ScrubMem → Option Nat
  | .shed k => some k.val
  | .sram | .mram => none

/-- The shed that a shadowed block is. -/
def ShadowBlock.shedOf : ShadowBlock → Option Nat
  | .shed k => some k.val
  | .yard => none
  | .port _ => none
  | .spim _ => none
  | .paddock _ => none

/-- The shed that a command names, if it names one. -/
def Instr.shedOf : Instr → Option Nat
  | .markWordSend _ _ => none
  | .yardFrameMark _ => none
  | .mark _ k _ _ _ => some k.val
  | .shedMarkFire _ m => some m.shed.val
  | .freeRunMark _ k => some k.val
  | .greyClockLock _ k => some k.val
  | .linkLatencyCalibration _ k _ => some k.val
  | .linkTrained _ k _ _ => some k.val
  | .linkTrainAttempt _ k => some k.val
  | .write _ k _ _ => some k.val
  | .readReq _ k _ _ => some k.val
  | .readData _ k _ _ => some k.val
  | .prepare _ k _ _ => some k.val
  | .prepareOk _ k _ _ => some k.val
  | .prepareFail _ k _ _ => some k.val
  | .frameStatus _ k _ _ => some k.val
  | .event _ k _ _ => some k.val
  | .commit _ k _ _ => some k.val
  | .abort _ k _ _ => some k.val
  | .patCtl _ k _ _ => some k.val
  | .derate _ k _ _ => some k.val
  | .failOff _ k _ _ => some k.val
  | .govern _ k _ _ => some k.val
  | .round _ k _ _ => some k.val
  | .fallback _ k _ _ => some k.val
  | .inject _ k _ _ => some k.val
  | .ack _ k _ _ _ => some k.val
  | .nak _ k _ _ _ => some k.val
  | .heartbeat _ k _ _ => some k.val
  | .idleWord _ k _ _ => some k.val
  | .heartbeatSend _ k _ => some k.val
  | .heartbeatTimeout _ k _ => some k.val
  | .retryTimeout _ k _ => some k.val
  | .pwmPeriodEnd _ k _ => some k.val
  | .trimDropout _ k _ => some k.val
  | .placementStart _ k => some k.val
  | .placerDone _ k _ _ => some k.val
  | .placerDeadline _ k => some k.val
  | .spreadToLevel _ k _ => some k.val
  | .sinkOvervoltage _ k _ _ => some k.val
  | .scanOvercurrentTrip _ k _ => some k.val
  | .boosterOvercurrent _ k _ => some k.val
  | .debounceComplete _ k _ => some k.val
  | .freshnessExpiry _ k _ _ => some k.val
  | .probeDebtDrop _ k _ => some k.val
  | .keyframeEnd _ k _ => some k.val
  | .phaseDelayEnd _ k _ => some k.val
  | .fadeEnd _ k _ => some k.val
  | .engineCheckpoint _ k => some k.val
  | .shedRoundComplete _ k _ => some k.val
  | .retestEvaluation _ => none
  | .ltCalCaptureEnd _ => none
  | .housekeepingRound _ => none
  | .nvDeferredWrite _ => none
  | .armedRecordRewrite _ => none
  | .overtempTrip _ die => if die.val = 0 then none else some (die.val - 1)
  | .deferredHotWrite _ => none
  | .hotRecordVerify _ _ _ => none
  | .verdictMapPublish _ => none
  | .functionStateTableUpdate _ => none
  | .deviceStatusPageUpdate _ => none
  | .commitRoundStart _ => none
  | .commitTimeout _ => none
  | .supplyValid _ => none
  | .crystalStable _ => none
  | .pwrEnStartup _ => none
  | .stableLoadRetry _ => none
  | .firmwareStart _ => none
  | .powerOnReset _ => none
  | .railBrownout _ => none
  | .resetNAssert _ _ => none
  | .resetNRelease _ => none
  | .watchdogExpiry _ => none
  | .powerFailDetected _ => none
  | .powerFailFlushDone _ => none
  | .vbatReturn _ _ => none
  | .dipResume _ => none
  | .nwIdleTimeout _ => none
  | .nwFlushDone _ => none
  | .wakePinEvent _ _ => none
  | .linkEnergyDetected _ => none
  | .wakeTimerExpiry _ => none
  | .wakeFrame _ _ => none
  | .wakeFrameWindowExpiry _ => none
  | .pwrEnWakeRise _ => none
  | .sessionOpen _ _ => none
  | .sessionClose _ _ => none
  | .sessionKeepalive _ _ => none
  | .sessionChallenge _ _ => none
  | .sessionAuth _ _ => none
  | .sessionDrop _ _ => none
  | .sessionEvents _ _ => none
  | .sessionInfo _ _ => none
  | .pageTake _ _ => none
  | .pageRelease _ _ => none
  | .pageLock _ _ => none
  | .pageUnlock _ _ => none
  | .fnAcquire _ _ => none
  | .fnRelease _ _ => none
  | .leaseExpiry _ _ => none
  | .doorbellRing _ _ => none
  | .doorbellPendingCopy _ _ => none
  | .replyAcknowledge _ _ => none
  | .winDataWrite _ _ => none
  | .winDataRead _ => none
  | .frontRegisterWrite _ _ _ => none
  | .spitStatus _ _ _ => none
  | .regRead _ _ _ => none
  | .regWrite _ _ _ => none
  | .mbxWrite _ _ _ => none
  | .mbxRead _ _ _ => none
  | .winWrite _ _ _ => none
  | .winRead _ _ _ => none
  | .spitRefusedType _ _ _ => none
  | .ethernetFrame _ _ => none
  | .learnedEntryAgeOut _ _ _ => none
  | .t1LinkUp _ => none
  | .t1LinkDown _ => none
  | .plcaCycle _ => none
  | .nodePresenceTimeout _ _ => none
  | .arpRequest _ _ => none
  | .icmpEchoRequest _ _ => none
  | .jhpCommandDatagram _ _ => none
  | .jhpAckDatagram _ _ => none
  | .replyResend _ _ => none
  | .windowWriteDatagram _ _ => none
  | .windowReadDatagram _ _ => none
  | .windowReadDelayedCopy _ => none
  | .canJhpCommandFrame _ _ _ => none
  | .canJhpAckFrame _ _ _ => none
  | .canReplyResend _ _ => none
  | .canDataFrame _ _ _ => none
  | .canBusOff _ _ _ => none
  | .canBusOffRecovered _ _ => none
  | .canErrPassive _ _ _ _ => none
  | .canValueTimeout _ _ _ => none
  | .canStatusTx _ _ _ => none
  | .canMapLoad _ _ => none
  | .canRestart _ _ => none
  | .spimConfig _ _ => none
  | .spimXfer _ _ _ => none
  | .spimXferPage _ _ _ => none
  | .spimReset _ _ => none
  | .spimStatus _ _ => none
  | .xipConfig _ _ => none
  | .spimXipCopy _ _ _ => none
  | .spimTransferDone _ _ => none
  | .spimHoldTimeout _ _ => none
  | .xipCopyDone _ => none
  | .nop _ _ => none
  | .br _ _ _ => none
  | .hold _ _ _ => none
  | .sho _ _ => none
  | .shi _ _ _ => none
  | .lvl _ _ => none
  | .dir _ _ => none
  | .ld _ _ _ => none
  | .give _ _ => none
  | .take _ _ => none
  | .flag _ _ => none
  | .paddockEventAccept _ _ => none
  | .pkTxQueueMove _ _ => none
  | .pkRxQueueMove _ _ => none
  | .pkLoad _ _ => none
  | .pkStore _ _ => none
  | .pkPinConfig _ _ => none
  | .pkStart _ _ => none
  | .pkStop _ _ => none
  | .pkReset _ _ => none
  | .pkPush _ _ => none
  | .pkPull _ _ => none
  | .pkStatus _ _ => none
  | .sceneCommit _ _ => none
  | .sceneRecall _ _ => none
  | .sceneReadback _ _ => none
  | .sceneStore _ _ => none
  | .patLoad _ _ => none
  | .patStart _ _ => none
  | .patStop _ _ => none
  | .patTrigger _ _ => none
  | .patReset _ _ => none
  | .patStatus _ _ => none
  | .fnClear _ _ => none
  | .ltRead _ _ => none
  | .ltCalCapture _ _ => none
  | .ltCalStatus _ _ => none
  | .ltCalCommit _ _ => none
  | .ltCalWrite _ _ => none
  | .thermClear _ _ => none
  | .nwEnter _ _ => none
  | .logCursor _ _ => none
  | .logFetch _ _ => none
  | .logFlush _ _ => none
  | .logClear _ _ => none
  | .logSetWall _ _ => none
  | .logRateSet _ _ => none
  | .tackFetch _ _ => none
  | .lampReset _ _ => none
  | .logFlushPeriodic _ => none
  | .logFlushUrgent _ => none
  | .tackSnapshotWrite _ => none
  | .accountingSave _ => none
  | .operatingSecond _ => none
  | .nvItemWrite _ _ => none
  | .fwStatus _ _ => none
  | .fwInstallBegin _ _ => none
  | .fwInstallWrite _ _ => none
  | .fwInstallFinish _ _ => none
  | .fwInstallAbort _ _ => none
  | .fwActivate _ _ => none
  | .fwSvnRaise _ _ => none
  | .cfgRead _ _ => none
  | .cfgWrite _ _ => none
  | .cfgSave _ _ => none
  | .idRead _ _ => none
  | .keyNonce _ _ => none
  | .keySet _ _ => none
  | .keyStatus _ _ => none
  | .warmReset _ _ => none
  | .shedReset _ _ => none
  | .portReset _ _ => none
  | .faultStatus _ _ => none
  | .faultClear _ _ => none
  | .faultInject _ _ => none
  | .linkStatus _ _ => none
  | .faultRaise _ _ die => if die.val = 0 then none else some (die.val - 1)
  | .resetShadowEnd _ b => b.shedOf
  | .injectionTimeout _ => none
  | .scrubPass _ b _ _ => b.shedOf
  | .sramTestWordRead _ => none
  | .cryptoSelfTestDone _ _ => none
  | .spitPartialCommandByte _ _ => none
  | .wakePinInactive _ _ => none
  | .nwOscillatorInBand _ => none
  | .yardRoundConversionsComplete _ _ => none

end Sys2Proof
end

