-- ==== Sys2Proof/Decode.lean ====
section
/-! DEFINITION. The decoder over the rows of the opcode table that give bits. No row of the table gives any: the block takes
commands, events and packets, which carry no instruction words. The words of the Paddock lanes are data of the block and are
read in Sys2Proof/Machine/Lane.lean. -/

namespace Sys2Proof

/-- No word of the opcode table spells a command. -/
def decodeTableWord (nbits w : Nat) : Option Instr :=
  match nbits, w with
  | _, _ => none

end Sys2Proof
end

