-- ==== Sys2Proof/Machine/Table.lean ====
section
/-! DEFINITION. Operations of the sparse tables: a lookup with a default, an update that keeps the canonical form
(keys strictly rising, no entry equal to the default), and the form itself as a decidable test. -/

namespace Sys2Proof

/-- The entry of key `k`, where one is listed. -/
def Table.find? {α : Type} (t : Table α) (k : Nat) : Option α :=
  match t with
  | [] => none
  | (k', v) :: r => if k' == k then some v else Table.find? r k

/-- What key `k` reads as: its entry, or the default. -/
def Table.get {α : Type} (d : α) (t : Table α) (k : Nat) : α := (Table.find? t k).getD d

/-- The table without key `k`. -/
def Table.drop {α : Type} (t : Table α) (k : Nat) : Table α := t.filter (fun p => p.1 != k)

/-- Insertion of a key that is not listed, in rising order. -/
def Table.ins {α : Type} (t : Table α) (k : Nat) (v : α) : Table α :=
  match t with
  | [] => [(k, v)]
  | (k', v') :: r => if k < k' then (k, v) :: (k', v') :: r else (k', v') :: Table.ins r k v

/-- Write of `v` at key `k`; a value equal to the default is not listed. -/
def Table.put {α : Type} [DecidableEq α] (d : α) (t : Table α) (k : Nat) (v : α) : Table α :=
  if v = d then Table.drop t k else Table.ins (Table.drop t k) k v

/-- Change of the value at key `k`. -/
def Table.upd {α : Type} [DecidableEq α] (d : α) (t : Table α) (k : Nat) (f : α → α) : Table α :=
  Table.put d t k (f (Table.get d t k))

/-- Canonical form: keys strictly rising, no default listed. -/
def Table.wf {α : Type} [DecidableEq α] (d : α) : Table α → Bool
  | [] => true
  | (k, v) :: r => decide (v ≠ d) && (r.all fun p => decide (k < p.1)) && Table.wf d r

/-- `n` consecutive entries from `k`. -/
def Table.range {α : Type} (d : α) (t : Table α) (k n : Nat) : List α :=
  (List.range n).map fun i => Table.get d t (k + i)

/-- Write of consecutive entries from `k`. -/
def Table.putAll {α : Type} [DecidableEq α] (d : α) (t : Table α) (k : Nat) : List α → Table α
  | [] => t
  | v :: vs => Table.putAll d (Table.put d t k v) (k + 1) vs

end Sys2Proof
end

