-- ==== Sys2Proof/Machine/Operands.lean ====
section
/-! DEFINITION. How numbers lie in words and bytes: bit fields of registers (00, R12), little-endian fields of payloads
and pages (00, R10; 17, R450), masks, and the 1/16 K temperature codes (14, R381). -/

namespace Sys2Proof

/-- Bits `hi` down to `lo` of a register. -/
def Word.fld (w : Word) (hi lo : Nat) : Nat := (w.toNat >>> lo) % 2 ^ (hi + 1 - lo)

/-- The register with bits `hi` down to `lo` replaced by `v`, cut to the field's width. -/
def Word.withFld (w : Word) (hi lo v : Nat) : Word :=
  BitVec.ofNat 32 (w.toNat % 2 ^ lo + (v % 2 ^ (hi + 1 - lo)) * 2 ^ lo + (w.toNat >>> (hi + 1)) * 2 ^ (hi + 1))

/-- One bit of a register. -/
def Word.bit (w : Word) (i : Nat) : Bool := w.toNat.testBit i

/-- A bit of a number as 0 or 1. -/
def bit01 (b : Bool) : Nat := if b then 1 else 0

/-- Byte `i` of a payload, 0 beyond its end. -/
def u8 (p : List Byte) (i : Nat) : Nat := (p.getD i 0).toNat

/-- Two-byte little-endian field. -/
def u16 (p : List Byte) (i : Nat) : Nat := u8 p i + 256 * u8 p (i + 1)

/-- Four-byte little-endian field. -/
def u32 (p : List Byte) (i : Nat) : Nat := u16 p i + 65536 * u16 p (i + 2)

/-- Eight-byte little-endian field. -/
def u64 (p : List Byte) (i : Nat) : Nat := u32 p i + 4294967296 * u32 p (i + 4)

/-- `n` bytes of a number, least significant first. -/
def le (n v : Nat) : List Byte :=
  match n with
  | 0 => []
  | m + 1 => BitVec.ofNat 8 v :: le m (v / 256)

/-- The number that bytes spell, least significant first. -/
def ofLe : List Byte → Nat
  | [] => 0
  | b :: r => b.toNat + 256 * ofLe r

/-- The number that bytes spell, most significant first. -/
def ofBe (l : List Byte) : Nat := l.foldl (fun a b => a * 256 + b.toNat) 0

/-- `n` zero bytes. -/
def zeros (n : Nat) : List Byte := List.replicate n 0

/-- `c` bytes of a payload from `i`. -/
def slice (p : List Byte) (i c : Nat) : List Byte := (p.drop i).take c

/-- The list cut or padded with zeros to `n` bytes. -/
def padTo (n : Nat) (p : List Byte) : List Byte := p.take n ++ zeros (n - p.length)

/-- Item `n` of a mask field (17, R450). -/
def maskBit (p : List Byte) (off n : Nat) : Bool := (u8 p (off + n / 8)).testBit (n % 8)

/-- The items of a mask field of `n` items. -/
def maskList (p : List Byte) (off n : Nat) : List Nat := (List.range n).filter fun i => maskBit p off i

/-- A mask field of `bytes` bytes that holds the items of `l`. -/
def maskBytes (bytes : Nat) (l : List Nat) : List Byte :=
  (List.range bytes).map fun i =>
    BitVec.ofNat 8 (((List.range 8).map fun j => if l.contains (8 * i + j) then 2 ^ j else 0).foldl (· + ·) 0)

/-- Little-endian words of a byte list, four bytes each. -/
def words32 (p : List Byte) (n : Nat) : List Nat := (List.range n).map fun i => u32 p (4 * i)

/-- The number of bits of a mask number below `n` that are set. -/
def popCount (v n : Nat) : Nat := ((List.range n).filter fun i => v.testBit i).length

/-- Set bit `i` of a mask number. -/
def setBit (v i : Nat) : Nat := if v.testBit i then v else v + 2 ^ i

/-- Clear bit `i` of a mask number. -/
def clrBit (v i : Nat) : Nat := if v.testBit i then v - 2 ^ i else v

/-- Two's-complement value of an `n`-bit number. -/
def signed (n v : Nat) : Int := if v % 2 ^ n < 2 ^ (n - 1) then (v % 2 ^ n : Int) else (v % 2 ^ n : Int) - 2 ^ n

/-- `n`-bit two's-complement number of an integer. -/
def toBits (n : Nat) (v : Int) : Nat := (v % (2 ^ n : Int)).toNat

/-- Temperature code of 1/16 K with offset −40 °C, from a temperature in 1/16 K of °C (14, R381). -/
def tempCode (bits : Nat) (t : Int) : Nat := min ((t + 640).toNat) (2 ^ bits - 1)

/-- Rounded to the nearest integer, halves upwards. -/
def roundDiv (a b : Nat) : Nat := (2 * a + b) / (2 * b)

/-- Rounded quotient of an integer by a natural, halves away from zero. -/
def roundDivI (a : Int) (b : Nat) : Int :=
  if a < 0 then -((roundDiv a.natAbs b : Nat) : Int) else ((roundDiv a.natAbs b : Nat) : Int)

/-- Quotient rounded up. -/
def ceilDiv (a b : Nat) : Nat := (a + b - 1) / b

/-- Sum of a list. -/
def sumN (l : List Nat) : Nat := l.foldl (· + ·) 0

/-- Largest of a list, 0 when empty. -/
def maxN (l : List Nat) : Nat := l.foldl max 0

/-- `SEQ` order of R380: `a` precedes `b`. -/
def seqBefore (a b : Nat) : Bool := let d := (b + 2 ^ 32 - a % 2 ^ 32) % 2 ^ 32; 1 ≤ d && d < 2 ^ 31

/-- The count after `c`, skipping 0, in 32 bits (R380, R435). -/
def seqNext (c : Nat) : Nat := if c % 2 ^ 32 = 2 ^ 32 - 1 then 1 else c % 2 ^ 32 + 1

/-- `n` counts after `c` of R380's numbers. -/
def seqAdd (c n : Nat) : Nat := (c - 1 + n) % (2 ^ 32 - 1) + 1

/-- The order of 32-bit frame counts: `a` lies at or after `b`. -/
def markAtOrAfter (a b : Word) : Bool := (a - b).toNat < 2 ^ 31

end Sys2Proof
end

