-- ==== Sys2Proof/Machine/State.lean ====
section
/-! DEFINITION. The state of the block: everything the spec gives the package, as plain data. Registers of Table 17.7
live in one register file (`State.regs`); every other piece of state is a field here, under the chapter that names it.
Times are in nanoseconds of the model's own clock (log entry 1). -/

namespace Sys2Proof.Machine

open Sys2Proof

/-- Why a step stops with a fault. -/
inductive Fault where
  /-- Raised by a command of a die that the variant does not contain (00, R1 and Table 0.1; 01, R44): no such die,
  link or engine exists to act. Safe: the hardware has nothing there. -/
  | absentShed (k : Nat)
  deriving DecidableEq, Repr

/-- Why a command is refused. -/
inductive Refusal where
  /-- Raised only by an arm of `exec` whose command has no meaning yet. Safe: the model stops. -/
  | notModelled (mnemonic : String)
  deriving DecidableEq, Repr

/-- Family member (00, Table 0.1). -/
inductive Variant where
  | zlk2
  | zlk4
  | zlk8
  deriving DecidableEq, Repr

/-- Operating mode (02, Table 2.3), with the states before it. -/
inductive Mode where
  /-- Start-up not complete (17, STATUS.MODE 3). -/
  | startup
  | run
  | update
  | coldWait
  | nightWatch
  deriving DecidableEq, Repr

/-- How far a start has come (02, Table 2.2). -/
inductive Phase where
  /-- A supply is missing, or the yard is held in reset. -/
  | held
  /-- The last supply is valid; the crystal is starting. -/
  | released
  /-- Crystal stable, yard PLLs locked; links train. -/
  | clocked
  /-- Boot marks run; the loader's round is under way or has failed. -/
  | loading
  /-- The Stable scene is applied; boot mark `Mb` has passed. -/
  | done
  deriving DecidableEq, Repr

/-- What a wake-frame check waits for (02, R67). -/
structure WakeCheck where
  since : Nat
  deriving DecidableEq, Repr

/-- Night Watch entry in progress (02, Table 2.4). -/
structure NwEntry where
  at_ : Nat
  idle : Bool
  outputsOff : Bool
  deriving DecidableEq, Repr

/-- Power-fail in progress (02, R81, R85). -/
structure PowerFail where
  at_ : Nat
  flushed : Bool
  backAt : Option Nat
  lowest : Nat
  /-- Lanes running at detection, to resume after a dip (13, Table 13.8). -/
  lanes : List Nat
  deriving DecidableEq, Repr

/-- Supplies, modes, wake and resets (02). -/
structure Power where
  vbat : Bool
  vio : Bool
  vcore : Bool
  pwrEn : Bool
  pwrEnAt : Nat
  phase : Phase
  mode : Mode
  /-- Instant of the last supply becoming valid (R46). -/
  validAt : Nat
  resetLow : Bool
  /-- The flush of a RESET_N reset is not finished (R74). -/
  resetFlush : Bool
  /-- The firmware runs. -/
  fw : Bool
  /-- JHP service is open (STATUS.READY). -/
  ready : Bool
  stable : Bool
  /-- A controller warm reset is waiting for its restart. -/
  warm : Bool
  /-- Brownout start: loss of staged records is unknown (R74, R395). -/
  lossUnknown : Bool
  /-- A power-fail flush has begun since the last start, so PF_LOST counts what that start has lost (R82). -/
  lossNew : Bool
  por : Bool
  wakeActive : BitVec 4
  idleSince : Option Nat
  entry : Option NwEntry
  /-- A wake source waits for PWR_EN (R65). -/
  wakePending : Bool
  check : Option WakeCheck
  timerSince : Nat
  osc : Bool
  crystal : Bool
  fail : Option PowerFail
  /-- Cold Wait entered at. -/
  coldAt : Nat
  /-- Dies whose over-temperature comparator is tripped. -/
  tripped : BitVec 8
  /-- A comparator trip started the present Cold Wait (R271). -/
  hotTrip : Bool
  /-- Instants of automatic Cold Wait exits (R272). -/
  autoExits : List Nat
  /-- Earliest instant at which outputs that are off may resume at a mark (R60, R85, R413). -/
  resumeAt : Option Nat
  /-- The line that turns every output off is asserted. -/
  lineOff : Bool
  /-- FAIL_N as last driven, to see its changes of level (IRQ_FLAGS.FAIL). -/
  failLevel : Bool
  /-- A load of the Stable scene has failed and the firmware has not recorded it (R57). -/
  loadFailed : Bool
  /-- Staged records of a power-fail wait for the yard to cool (14, R394). -/
  heldBack : Bool
  deriving DecidableEq, Repr

/-- Frame mark generator in the link islands (01, R26; 02, R52; 04, R118). -/
structure Marks where
  running : Bool
  boot : Bool
  count : Word
  at_ : Nat
  perP : Nat
  perN : Nat
  /-- Named change of P and N: mark, P, N (R118). -/
  change : Option (Word × Nat × Nat)
  /-- MARK words of the coming mark already sent. -/
  sent : Nat
  /-- Boot mark Mb of the loader's round, once named. -/
  mb : Option Word
  /-- A change of P and N waits for WRITEs to be free (05, R156). -/
  nameDue : Bool
  /-- Band in force at the loader's choice or last change (09, R274). -/
  bandPend : Option (Word × Nat)
  deriving DecidableEq, Repr

/-- Action of a pattern control (06, Table 6.8), and the engine reset of R186. -/
inductive PatAct where
  | start
  | stop
  | toggle
  | reset
  deriving DecidableEq, Repr

/-- A pattern control (06, COMMAND code 0x0110). -/
structure PatCtl where
  engine : Nat
  act : PatAct
  immediate : Bool
  mark : Word
  /-- Controls for the same engine and mark that this one superseded before they were sent (R184). -/
  superseded : Nat
  deriving DecidableEq, Repr

/-- COMMAND words (01 Table 1.5; codes in 05, 06, 07, 08, 09, 15). -/
inductive Cmd where
  | commit (id : Nat) (mark : Word)
  | abort
  | patCtl (c : PatCtl)
  | derate (from_ : Word) (codes : List (Nat × Nat))
  | failOff (fn : Nat)
  | govern (gs gr share : Nat)
  | round (vbat : Nat)
  | fallback
  | inject (checker bits target : Nat)
  deriving DecidableEq, Repr

/-- What an engine checkpoint holds (06, R193). -/
structure Checkpoint where
  engine : Nat
  frame : Word
  st : Nat
  delay : Nat
  key : Nat
  j : Nat
  d : Nat
  l0 : Nat
  level : Nat
  passes : Table Nat
  fade : Nat
  /-- Outputs of the member sites and the stop values, which a held or fading engine needs to agree bit for bit. -/
  fadeFrom : Nat
  outs : Table Nat
  stops : Table Nat
  deriving DecidableEq, Repr

/-- Capture at a shed (07, R213, R214): for each site the sums and counts at both codes and the board samples. -/
structure CapSite where
  site : Nat
  sumA : Int
  nA : Nat
  sumB : Int
  nB : Nat
  low : Bool
  tbFirst : Option Int
  tbMin : Int
  tbMax : Int
  tbSum : Int
  tbN : Nat
  invalid : Bool
  status : Nat
  /-- Full scale of the channel in µA. -/
  fs : Nat
  deriving DecidableEq, Repr

/-- A capture: the yard's order, or the run at the shed. -/
structure Capture where
  shed : Nat
  point : Nat
  acal : Nat
  mark : Word
  /-- Session and entry that are answered once the mark is named. -/
  sess : Nat
  entry : Nat
  named : Bool
  /-- Periods made. -/
  periods : Nat
  sites : List CapSite
  deriving DecidableEq, Repr

/-- A shed's EVENT packet. Sites, switches and so on are local numbers. -/
inductive ShedEvent where
  /-- The verdict of a site and of the sites that follow it in its paralleled group, `members` in all. -/
  | verdict (site members old new : Nat) (offOnly : Bool)
  | switchVerdict (sw old new : Nat)
  | boosterVerdict (xc old new : Nat)
  | starved (site : Nat)
  | mode (g : Nat) (spread : Bool) (reason : Nat)
  | rowScaled (row factor : Nat)
  | rowRegOver (row load : Nat)
  | exclHeld (site admitted : Nat)
  | lampHot (site : Nat) (tl : Int)
  /-- Sensor input declared open or shorted (07, R203). -/
  | ntc (input : Nat) (opened : Bool)
  | fault (det : Nat)
  | patLate (engine : Nat) (mark : Word)
  /-- The checkpoints of one mark: every engine that is not IDLE (06, R193). -/
  | checkpoints (frame : Word) (l : List Checkpoint)
  /-- The 64 periods of a capture are made (07, R214). -/
  | captured (c : Capture)
  deriving DecidableEq, Repr

/-- Contents of FRAME_STATUS (01 R27; 06 R189; 07 R205; 09 R263; 14 R405). -/
structure FrameSt where
  frame : Word
  styling : List Nat
  regulated : List Nat
  fixed : Nat
  readings : Option ShedReadings
  /-- Board temperature and validity of the four inputs. -/
  boards : List (Int × Bool)
  emits : List Nat
  lit : List Nat
  mdis : Nat
  /-- The governor's factors for the frame were late (01, R41). -/
  late : Bool
  deriving DecidableEq, Repr

/-- What the yard sends with a reload for the engines (06, R193): their state at the end of mark `frame`, brought there from the newest
checkpoints, and the controls that the checkpoints do not hold yet. -/
structure Restore where
  frame : Word
  /-- Frame length in ns, and whether the engines are frozen, from a mark on; newest first (R177, R196). -/
  eras : List (Word × Nat × Bool)
  engines : List Checkpoint
  /-- Controls superseded on the way to `frame`, by engine (R184). -/
  dropped : Table Nat
  /-- Engines for which the way met the limit of R179. -/
  clips : List Nat
  ctls : List PatCtl
  deriving DecidableEq, Repr

/-- A calibration capture as the yard orders it (07, R213). -/
structure CaptureOrder where
  first : Nat
  count : Nat
  point : Nat
  acal : Nat
  mark : Word
  deriving DecidableEq, Repr

/-- A sequenced die-link packet (01, Table 1.5). -/
inductive Packet where
  | write (addr : Nat) (words : List DWord)
  /-- WRITEs whose words stand for what the manual gives no layout to (log entry 6). -/
  | writeEngines (r : Restore)
  | writeCapture (c : CaptureOrder)
  | readReq (addr : Nat)
  | readData (addr : Nat) (words : List DWord)
  | prepare (id : Nat)
  | prepareOk (id : Nat)
  | prepareFail (id : Nat)
  | frameStatus (f : FrameSt)
  | event (e : ShedEvent)
  | command (c : Cmd)
  deriving DecidableEq, Repr

/-- An unacknowledged packet at its sender (01, R34 to R36). -/
structure OutPkt where
  seq : Nat
  pkt : Packet
  /-- Header word of its newest transmission (01, Table 1.4). -/
  head : DWord
  /-- First instant of its newest transmission on the lane, and the end of its last word. -/
  startAt : Nat
  sentAt : Nat
  /-- It has been on the lane before that transmission. -/
  again : Bool
  retries : Nat
  deriving DecidableEq, Repr

/-- A control word put on the lane (01, Table 1.5). -/
inductive Ctl where
  | mark (fire : Nat) (count : Word)
  | ack (upTo : Nat)
  | nak (expected : Nat)
  | heartbeat (count : Word)
  deriving DecidableEq, Repr

/-- One end of a die link (01, R33 to R38). -/
structure LinkEnd where
  txSeq : Nat
  rxSeq : Nat
  waiting : List Packet
  out : List OutPkt
  /-- Control words on their way, newest first, with their header words. -/
  ctl : List (Ctl × DWord)
  /-- Instant from which the lane is free of the packets handed to it (R34). -/
  busy : Nat
  /-- Packet on the lane in which control words were last inserted, and how many beside MARK words (R34). -/
  ctlSeq : Option Nat
  ctlN : Nat
  /-- Control words held until that packet ends (R34). -/
  ctlHeld : List Ctl
  lastRx : Nat
  lastTx : Nat
  /-- The heartbeat action has fired in this outage (R38, R423). -/
  fired : Bool
  deriving DecidableEq, Repr

/-- One die link. -/
structure Link where
  trained : Bool
  yard : LinkEnd
  shed : LinkEnd
  /-- Start of the present outage (15, R422). -/
  outage : Option Nat
  outageInc : Nat
  lastTry : Nat
  /-- Latency result waiting for its mark (R30). -/
  latPend : Option Nat
  deriving DecidableEq, Repr

/-- What a shed shows (01 Table 1.1; 02 R48, R78; 05 R168). -/
inductive ShedMode where
  /-- Safe state, before any scene. -/
  | safe
  | joined
  /-- Showing its fallback image. -/
  | fallback
  /-- Held in a shed reset with its outputs in the safe state (15, OFF_CHECK). -/
  | resetting
  deriving DecidableEq, Repr

/-- Pattern engine (06, Tables 6.7 and 6.12). -/
inductive EngSt where
  | idle
  | running
  | fading
  | done
  deriving DecidableEq, Repr

structure Engine where
  st : EngSt
  /-- Frames left of the PHASE delay. -/
  delay : Nat
  inDelay : Bool
  key : Nat
  j : Nat
  /-- Length of the running keyframe pass (R177). -/
  d : Nat
  l0 : Nat
  level : Nat
  passes : Table Nat
  fade : Nat
  fadeFrom : Nat
  /-- Output of each member site. -/
  outs : Table Nat
  /-- Stop values of a FADE (R182). -/
  stops : Table Nat
  /-- The last frame of the keyframe has been evaluated (R174). -/
  ended : Bool
  clip : Bool
  late : Nat
  dropped : Nat
  deriving DecidableEq, Repr

/-- A mark as a shed evaluated its engines, kept for controls that come late (06, R192). -/
structure PastMark where
  frame : Word
  /-- Frame length in ns before and from the mark. -/
  tfOld : Nat
  tf : Nat
  /-- The engines as the mark found them, after its loads. -/
  engines : Table Engine
  loads : List Nat
  auto : Bool
  ctls : List PatCtl
  deriving DecidableEq, Repr

/-- Per-site state of a shed (04 R120, R139; 07 R209; 08 R230 to R242). -/
structure Site where
  /-- Residue in 1/256 grey clock (R120). -/
  residue : Nat
  /-- Blended value of the last planned frame, for R139's request age. -/
  lastG : Nat
  reqAt : Word
  /-- Number, in the count of periods planned (`Drive.planned`), of the period in which the site last carried on-time. -/
  lastOn : Option Nat
  debt : Nat
  /-- Frame count at whose end an unpaid debt is dropped (R242). -/
  debtTo : Word
  rawOn : Nat
  rawOnN : Nat
  rawOff : Nat
  rawOffN : Nat
  /-- Debounced classes: 0 none, else code + 1 of Table 8.2's order in its kind. -/
  clsOn : Nat
  clsOff : Nat
  /-- Period count (`Drive.periods`) of the newest raw observation of each kind, and of the newest that agrees with the class. -/
  rawOnAt : Nat
  rawOffAt : Nat
  onAt : Nat
  offAt : Nat
  /-- The class is fresh: it counts in Table 8.3 (R231). -/
  onLive : Bool
  offLive : Bool
  /-- DEBOUNCE agreeing observations have been made and wait to form the class. -/
  onDue : Bool
  offDue : Bool
  /-- Verdict of the site's own sink; `verdict` is the paralleled group's, held at its commanding channel (R234). -/
  mine : Nat
  mineOff : Bool
  verdict : Nat
  offOnly : Bool
  /-- Frame and period of the last raw off-state observation (R227). -/
  offObs : Option (Word × Nat)
  /-- Filter state of R209, and the delta of the lamp temperature in force (R211): T_L is the board temperature in force
  (`Warm.base`) plus this. -/
  delta : Int
  used : Int
  tv : Option Int
  /-- Sum of corrected samples of this round, in units of 1/8,190 mV, and their number (R208). -/
  vSum : Int
  vN : Nat
  hot : Bool
  /-- Calibration record held by the shed (Table 7.7). -/
  cal : BitVec 64
  /-- Held off by exclusivity in the last planned frame (R144). -/
  held : Bool
  /-- Retest tallies: on-state observations, any bad one (R254). -/
  rtOn : Nat
  rtBad : Bool
  deriving DecidableEq, Repr

/-- Per-channel state of a shed. -/
structure Chan where
  /-- Last valid headroom sample, mV (R110, R261). -/
  sample : Option Nat
  /-- Overvoltage cut-offs counted (R92). -/
  ov : Nat
  /-- Pulses of the present period that the cut-off ended: row, and number of the pulse among the site's in the period. -/
  cuts : List (Nat × Nat)
  deriving DecidableEq, Repr

/-- Debounce state of a scan switch or booster channel (08, R235). -/
structure OutUnit where
  raw : Nat
  rawN : Nat
  due : Bool
  verdict : Nat
  tripped : Bool
  deriving DecidableEq, Repr

/-- What a pulse of its own stands for in a period (07 R213; 08 R239, R253). -/
inductive PulseKind where
  /-- FULL probe, at the site's code. -/
  | probe
  /-- REDUCED probe. -/
  | reduced
  | retest
  | capture
  deriving DecidableEq, Repr

/-- One site's place in a frame plan (04, R119 to R140). -/
structure SitePlan where
  site : Nat
  amp : Nat
  /-- Amplitude code after contention (R141). -/
  ampOut : Nat
  /-- On-time of each period, grey clocks. -/
  on : List Nat
  /-- Pulses: period, start, length. -/
  pulses : List (Nat × Nat × Nat)
  /-- Periods with a pulse of their own: period, amplitude code, kind. -/
  special : List (Nat × Nat × PulseKind)
  deriving DecidableEq, Repr

/-- A scan switch in the periods of a frame, in grey clocks from the period's start (03 R98, Table 3.6; 04 R124). -/
structure SwitchPlan where
  sw : Nat
  /-- Commanded on from the first instant to the second. -/
  on_ : Nat
  off : Nat
  /-- The row discharge current is drawn from its ball from `off` to this instant. -/
  discharge : Option Nat
  deriving DecidableEq, Repr

/-- A frame plan of a shed. -/
structure Plan where
  sites : List SitePlan
  /-- Scan switches that are commanded on in the frame. -/
  switches : List SwitchPlan
  /-- Groups in spread mode, and their REASON bits (R132). -/
  spread : List Bool
  reasons : List Nat
  /-- Scaled rows: row, FACTOR, PEAK of CONT_ST (R141). -/
  rows : List (Nat × Nat × Nat)
  /-- Rows whose regulated load alone exceeds the budget (R142). -/
  overRows : List Nat
  deriving DecidableEq, Repr

/-- One lit site of the frame being planned. The factor F' of 09 R261 (without the governor) is `num / den`. -/
structure Lit where
  site : Nat
  ch : Nat
  row : Nat
  group : Nat
  fn : Nat
  regulated : Bool
  booster : Bool
  g : Nat
  num : Nat
  den : Nat
  /-- Amplitude code for a grey value of 65,535 without the governor (08, R253). -/
  full : Nat
  span : Nat × Nat
  fs : Nat
  excl : Nat
  prio : Nat
  deriving DecidableEq, Repr

/-- A site of the frame being planned, with the on-times after R122 and the probe (04; 08, R239 to R242). -/
structure Draft where
  lit : Lit
  amp : Nat
  on : List Nat
  /-- On-times as they would be without the probe of this frame. -/
  plain : List Nat
  special : List (Nat × Nat × PulseKind)
  debt : Nat
  debtTo : Word
  residue : Nat
  /-- What the plan adds to DIAG_ST: REDUCED, NOPROBE, UNPAID, DEFERRED. -/
  reduced : Nat
  noProbe : Nat
  unpaid : Nat
  deferred : Nat
  deriving DecidableEq, Repr

/-- Placement of the coming frame (04, R126 to R134). -/
structure Placing where
  items : List Draft
  started : Nat
  finished : Bool
  late : Bool
  fault : Bool
  /-- Groups whose return to levelling waits to be reported (R133, R135). -/
  toLevel : List Nat
  deriving DecidableEq, Repr

/-- One sensor input of a shed (07, R202, R203). -/
structure NtcIn where
  tb : Int
  valid : Bool
  bad : Nat
  good : Nat
  /-- An input converted at least once. -/
  read : Bool
  deriving DecidableEq, Repr

/-- Retest in progress (08, R253, R254). -/
structure Retest where
  fn : Nat
  mark : Word
  /-- Its mark has been named: WRITEs were free (05, R156). -/
  named : Bool
  sess : Nat
  entry : Nat
  periods : Nat
  /-- Passed: mark of the return to NORMAL not yet reached. -/
  back : Option Nat
  failSite : Option Nat
  deriving DecidableEq, Repr

/-- A received MARK word (01, R27). -/
structure MarkIn where
  fireAt : Nat
  count : Word
  deriving DecidableEq, Repr

/-- Output drive of a shed (03, 04). -/
structure Drive where
  /-- Sinks, switches, boosters off, TRIM high-impedance. -/
  off : Bool
  plan : Plan
  next : Option Plan
  placing : Option Placing
  /-- Period of the frame being driven. -/
  period : Nat
  /-- The first frame driven after a start or rejoin is yet to be planned or has just been (R136). -/
  forceSpread : Bool
  /-- Groups that return to levelling without eight clean frames (R136). -/
  noWait : List Nat
  down : Table Nat
  gs : Nat
  gr : Nat
  /-- The factors for the coming frame have arrived. -/
  govern : Bool
  /-- The last frame was planned without them (01, R41). -/
  late : Bool
  derate : Table Nat
  deratePend : List (Word × List (Nat × Nat))
  failed : Table Nat
  capture : Option Capture
  retest : Option (Nat × Word)
  /-- Functions lit in the driven frame (R405). -/
  lit : List Nat
  /-- Frames placed in a row without a self-check failure, up to eight (15, detector 0x0D). -/
  checked : Nat
  /-- Periods of every frame planned, the running and the coming one included. -/
  planned : Nat
  /-- Periods driven: the count of freshness, which stands still while the outputs are off (08, R231). -/
  periods : Nat
  deriving DecidableEq, Repr

/-- Temperature side of a shed (07, 09). -/
structure Warm where
  ntc : Table NtcIn
  vls : List Nat
  vscan : List Nat
  /-- Voltage at Sn_SCAN_r as last sampled in the row's slot (08, R228). -/
  rowRef : Table Nat
  /-- VBAT in mV as the yard last sent it (03, R104). -/
  vbat : Nat
  roundAt : Nat
  busy : Bool
  /-- Board temperatures of the estimates in force and of the newest ones: inputs 0 to 3, then TFIX, 1/16 K (07, R209). -/
  base : List Int
  baseNext : List Int
  /-- Estimates that wait for the frame of R211, oldest first: start of their round, board temperatures, deltas of the sites. -/
  tl : List (Nat × List Int × Table Int)
  /-- Codes of the inputs as last converted, for the first reading of R204. -/
  codes : List Nat
  readings : Option ShedReadings
  shedOver : Bool
  deriving DecidableEq, Repr

/-- A driver die. -/
structure Shed where
  mode : ShedMode
  /-- Resynchronising: reload under way (02, R78, R79). -/
  resync : Bool
  frame : Word
  markAt : Nat
  markIn : Option MarkIn
  marksRx : Nat
  /-- Received marks in a row, for MARK_LOST's clear condition. -/
  goodMarks : Nat
  perP : Nat
  perN : Nat
  boot : Bool
  change : Option (Word × Nat × Nat)
  cfgIn : Table Word
  cfg : Table Word
  cfgDrv : Table Word
  front : Table DWord
  back : Table DWord
  /-- Words that read with an uncorrectable error: front or back, address. -/
  badWords : List (Bool × Nat)
  prepared : Option Nat
  held : Option (Nat × Word)
  lastRound : Nat
  engines : Table Engine
  ctls : List PatCtl
  /-- The newest marks evaluated, oldest first (06, R192). -/
  past : List PastMark
  /-- Engines that wait for the rejoin (06, R193), and controls that came for them meanwhile. -/
  restore : Option Restore
  restoreCtls : List PatCtl
  emits : List Nat
  sites : Table Site
  chans : Table Chan
  switches : Table OutUnit
  boosters : Table OutUnit
  drive : Drive
  warm : Warm
  mdisReport : Nat
  /-- Trim of the local oscillator in steps of 1/8,192 (01, R31). -/
  trim : Int
  /-- FALLBACK was received over a working link (R412). -/
  sentFallback : Bool
  /-- Events that wait for the rejoin (R249). -/
  held_events : List ShedEvent
  /-- The last word of a reload has been written: the next mark is the rejoin (02, R78). -/
  reloaded : Bool
  /-- Engines that the round under way loads at its apply mark (06, R199). -/
  loads : List Nat
  /-- Mark at which the AUTO engines start (06, R197). -/
  autoAt : Option Word
  /-- Function states that hold from a mark: mark, function, state (08, R249, R253, R254). -/
  fnPend : List (Word × Nat × Nat)
  deriving DecidableEq, Repr

/-- Host privilege (10, R281). -/
inductive Priv where
  | observer
  | operator
  | owner
  deriving DecidableEq, Repr

/-- A nonce issued to a session (10 R283; 16 R448). -/
structure Nonce where
  /-- The nonce; empty once a restart of the crypto engine has made it void (15, R418). -/
  bytes : List Byte
  level : Nat
  at_ : Nat
  /-- The level's key as it was at the challenge: a new key applies to later challenges (16, R448). -/
  key : List Byte
  deriving DecidableEq, Repr

/-- A session (10, R276 to R285). -/
structure Session where
  isOpen : Bool
  src : Source
  lease : Nat
  /-- The lease is SESS_CFG.LEASE, read again at every renewal (R278, R310). -/
  leaseDefault : Bool
  last : Nat
  priv : Priv
  events : BitVec 16
  viols : List Nat
  /-- VIOL_MAX and VIOL_WIN of SESS_CFG as the session took them at its opening, reset or last renewal (R310). -/
  violMax : Nat
  violWin : Nat
  nonce : Option Nonce
  keyNonce : Option Nonce
  cursor : Nat
  /-- SEQ of the SESSION_OPEN that opened it (R277). -/
  openSeq : Nat
  /-- TAG and reply of that SESSION_OPEN, for a copy of it (R277). -/
  openTag : Nat
  openReply : List Byte
  /-- SEQ of the last COMMAND accepted (R323) and of the last WRITE applied, with its code (R325). -/
  cmdSeq : Option Nat
  writeSeq : Option (Nat × Byte)
  deriving DecidableEq, Repr

/-- Where an entry of a mailbox queue stands (10, R286, R287). -/
inductive EntrySt where
  | waiting
  | begun
  | ended
  deriving DecidableEq, Repr

structure Entry where
  id : Nat
  opcode : Nat
  tag : Nat
  len : Nat
  flags : Nat
  payload : List Byte
  st : EntrySt
  deriving DecidableEq, Repr

/-- A reply or event in a mailbox (10, Tables 10.3, 10.5). -/
structure Item where
  entry : Nat
  opcode : Nat
  tag : Nat
  code : Nat
  detail : Nat
  payload : List Byte
  /-- The item has been staged: an event carries its LOST count from then on (R290). -/
  staged : Bool
  /-- Last transmission of a UDP or CAN session's item (R324, R330). -/
  sentAt : Nat
  deriving DecidableEq, Repr

structure Mailbox where
  slot : Table Byte
  queue : List Entry
  bell : Bool
  replies : List Item
  events : List Item
  lost : Nat
  evSeq : Nat
  deriving DecidableEq, Repr

/-- A SESSION_OPEN that waits from a source without a mailbox. -/
structure OpenReq where
  src : Source
  seq : Nat
  entry : Entry
  deriving DecidableEq, Repr

/-- Driver of a function (10, R292; 11, R332). -/
inductive Holder where
  | none
  | session (n : Nat)
  | map
  deriving DecidableEq, Repr

structure FnDrive where
  holder : Holder
  prio : Nat
  lapsed : Bool
  derate : Nat
  /-- 0 NORMAL, 1 FAILED_OFF, 2 RETEST. -/
  st : Nat
  failSite : Option Nat
  failVerdict : Nat
  lit : Bool
  lampS : Nat
  onN : Nat
  /-- Accumulator of R405 in ns. -/
  acc : Nat
  deriving DecidableEq, Repr

/-- Owner of a window page (10, Table 10.8). -/
inductive Owner where
  | free
  | host
  | device
  | locked
  deriving DecidableEq, Repr

structure PageOwn where
  owner : Owner
  session : Nat
  gen : BitVec 16
  dirty : Bool
  /-- The session that the page is DEVICE for has closed since (10, R279). -/
  orphan : Bool
  deriving DecidableEq, Repr

/-- A window read waiting for an even generation word (11, R326). -/
structure DelayedRead where
  d : Datagram
  page : Nat
  off : Nat
  count : Nat
  deriving DecidableEq, Repr

/-- The shared window (10, R295 to R300). -/
structure Window where
  mem : Table Byte
  /-- 64-bit words that read with an uncorrectable error, 512 a page. -/
  bad : List Nat
  own : Table PageOwn
  ownGen : Nat
  /-- Device-written pages of which a write is in progress or was the last: the instant of its end, and the page as it stood before (R300,
  R307). -/
  updates : Table (Nat × List Byte)
  delayed : List DelayedRead
  deriving DecidableEq, Repr

/-- The front register file and the SPI target port (10). -/
structure Front where
  irqFlags : Word
  irqEn : Word
  winAddr : Word
  scratch : Word
  frameErr : Bool
  winBusy : Bool
  /-- Bytes the device returned in the last transaction. -/
  miso : List Byte
  /-- Value of the last WIN_DATA read. -/
  winData : Word
  /-- Snapshots of the registers of access RS, by register number (R306; 00, Table 0.4). -/
  snaps : Table Word
  deriving DecidableEq, Repr

/-- One change that a commit makes, by package-wide number. -/
inductive Edit where
  | value (site v : Nat)
  | attr (site : Nat) (w : BitVec 64)
  | dot (ch v : Nat)
  | fn (n : Nat) (w : BitVec 128)
  | fallback (shed i : Nat) (w : Word)
  | prog (engine : Nat) (words : List DWord)
  deriving DecidableEq, Repr

/-- What a commit is for (05, R156). -/
inductive CommitKind where
  | host
  | recall
  | pattern (engines : List Nat) (trig : Option (List Byte))
  | stable
  | restore
  deriving DecidableEq, Repr

/-- A checked commit (05, R153 to R155). -/
structure Commit where
  kind : CommitKind
  sess : Nat
  entry : Nat
  tag : Nat
  frameId : Nat
  atFrame : Option Word
  checked : Nat
  edits : List Edit
  pages : List Nat
  deriving DecidableEq, Repr

/-- A commit round (05, R155 to R163). -/
structure Round where
  id : Nat
  commits : List Commit
  /-- Lapses and message-map values that the round carries (R149; 11, R333). -/
  lapses : List Nat
  values : List (Nat × Nat)
  /-- The edits of the round in order, and the image of every shed after it. -/
  edits : List Edit
  after : Table (Table DWord)
  /-- Present sheds of the round. -/
  sheds : List Nat
  away : Bool
  /-- Changed words of each shed. -/
  words : List (Nat × List (Nat × DWord))
  /-- Sheds whose PREPARE has been sent. -/
  prepared : List Nat
  ok : List Nat
  second : List Nat
  preparedAt : Nat
  /-- SAFE round (15, R412). -/
  safe : Bool
  /-- Restore round (15, R428). -/
  restore : Bool
  /-- The loader's round (R52). -/
  boot : Bool
  /-- The WRITEs of the second attempt are on their way to these sheds (R157). -/
  redo : List Nat
  deriving DecidableEq, Repr

/-- Commit control in the yard (05). -/
structure Scene where
  waiting : List Commit
  round : Option Round
  lastId : Nat
  /-- Apply mark of the last committed round: its frame count. -/
  applyMark : Option Word
  applyAt : Nat
  /-- Applied state of each shed, as the yard holds it. -/
  applied : Table (Table DWord)
  /-- Functions whose lapse waits for a round, and message-map values that wait, as value + 1 (R149; 11, R333). -/
  heldLapses : List Nat
  heldValues : Table Nat
  /-- Since when lapses, values, a SAFE round or a restore round wait to start (R155). -/
  heldSince : Option Nat
  /-- Applied state that the SAFE round replaced (15, R412, R428). -/
  replaced : Option (Table (Table DWord))
  safeWanted : Bool
  safeTries : Nat
  restoreDue : Bool
  /-- The firmware's last retry of a failed load (02, R57). -/
  loadTried : Option Nat
  loadFails : List Nat
  /-- WRITEs that wait while a round runs (R156): shed, address, word. -/
  heldWrites : List (Nat × Nat × DWord)
  /-- Sheds whose reload waits for the end of a round (02, R78). -/
  reloads : List Nat
  /-- Lapses of a controller warm reset, whose round starts before a session other than session 0 opens (02, R76). -/
  lapsesFirst : List Nat
  deriving DecidableEq, Repr

/-- Pattern side of the yard (06). -/
structure PatYard where
  /-- Bytes 0 to 1,047 of the trigger area in force. -/
  trig : Table Byte
  checks : Table Checkpoint
  /-- Frame of the last checkpoints of each shed, plus one; 0 for none. -/
  checkAt : Table Nat
  since : List (Nat × PatCtl)
  /-- Frame length in ns, and whether the engines are frozen, from a mark on; newest first (06, R177, R193, R196). -/
  eras : List (Word × Nat × Bool)
  /-- Pattern loads waiting for their apply mark: mark, engines loaded, trigger bytes. -/
  trigPend : Option (Word × List Nat × Option (List Byte))
  deriving DecidableEq, Repr

/-- Verdicts reported and not yet published (08, R243, R244): kind 0 site, 1 switch, 2 booster; number; how many from there on; entry. -/
structure DiagYard where
  due : List (Nat × Nat × Nat × Nat)
  changes : Nat
  /-- Frame count of the last update of the map. -/
  last : Option Word
  deriving DecidableEq, Repr

/-- Calibration results held by the yard (07, R214): sums and counts of the samples in mV and of T_B in 1/16 K, and the
full scale of the channel in µA. -/
structure CalPoint where
  sumA : Int
  nA : Nat
  sumB : Int
  nB : Nat
  tbSum : Int
  tbN : Nat
  acal : Nat
  fs : Nat
  /-- The point is kept. -/
  kept : Bool
  status : Nat
  deriving DecidableEq, Repr

structure LtYard where
  capture : Option Capture
  /-- The capture as its shed reported it. -/
  arrived : Option Capture
  /-- Results by 2 × package-wide site + point. -/
  points : Table CalPoint
  held : Bool
  deriving DecidableEq, Repr

/-- Governor, thermal control and the housekeeping round (09). -/
structure Thermal where
  /-- Start of the running round, and the round period as it stood then (R258, R274). -/
  roundAt : Nat
  roundLen : Nat
  /-- The chapter's registers as they stood at the start of the running round (R275); none: as they stand. -/
  regs : Option (Table Word)
  roundDue : Bool
  /-- Last valid die reading of each die, 1/16 K; index 0 the yard's hottest. -/
  dies : Table Int
  yardCore : Int
  yardMem : Int
  yardNet : Int
  supplies : List Nat
  /-- Dies that have reported in this round. -/
  reported : List Nat
  /-- Dies whose last report failed the reference check, and dies whose last report gave no valid reading. -/
  refBad : BitVec 8
  invalid : BitVec 8
  /-- Dies that have given an invalid reading in the running round (R260). -/
  badNow : BitVec 8
  everSeen : BitVec 8
  fresh : Bool
  upTimer : Option Nat
  lastUp : Nat
  lastDown : Nat
  warned : Bool
  armed : Option Nat
  armedAt : Nat
  /-- Hot-written records to verify (R271). -/
  hotDue : Bool
  hotDeferred : Bool
  /-- Tables last reported by each shed: styling, regulated, fixed. -/
  tables : Table (List Nat × List Nat × Nat)
  govDue : List Nat
  /-- STEPS at the last mark, which the decision of that mark uses (R269). -/
  govSteps : Nat
  /-- Board readings of each shed. -/
  boards : Table (List (Int × Bool))
  derateStart : Bool
  retest : Option Retest
  deriving DecidableEq, Repr

/-- A learned address (11, R317). -/
structure Learned where
  mac : BitVec 48
  vid : Nat
  port : Nat
  seen : Nat
  deriving DecidableEq, Repr

/-- What the firmware itself sends by Ethernet (11, R320). -/
inductive OwnMsg where
  | arpReply (mac : BitVec 48) (ip : Word)
  | gratuitousArp (ip : Word)
  | echoReply (ip : Word) (data : List Byte)
  | udp (ip : Word) (sport dport : BitVec 16) (body : List Byte)
  deriving DecidableEq, Repr

/-- A frame or datagram the device sends, newest first. -/
inductive NetOut where
  | frame (port : Nat) (f : EthFrame) (high : Bool)
  | beacon (nodes burst : Nat)
  /-- A message of the firmware by a port, with the VID of its tag if it leaves tagged. -/
  | own (port : Nat) (vid : Option Nat) (m : OwnMsg)
  /-- A CAN frame; `brs` says that its data phase runs at the data rate. -/
  | can (c id : Nat) (ide fdf brs : Bool) (data : List Byte)
  deriving DecidableEq, Repr

/-- Network side (11). -/
structure Net where
  link : Bool
  learned : List Learned
  /-- Egress queues by port: what waits, with its priority. -/
  egress : Table (List (Bool × NetOut))
  /-- Token buckets of R318 in bytes × 8 × 10^4, and the instant they were last filled. -/
  tokens : Table Nat
  tokenAt : Table Nat
  nodeSeen : Table Nat
  arp : List (Word × BitVec 48)
  out : List NetOut
  opens : List OpenReq
  /-- Answers sent in the present second, by source (R276). -/
  answers : List (Source × Nat)
  counter : Byte
  /-- The gratuitous ARP of a link-up is still to be sent (R320). -/
  arpDue : Bool
  deriving DecidableEq, Repr

/-- One message map entry's running state (11, R331 to R335). -/
structure MapEntry where
  last : Option Nat
  /-- Value of the last matching TRIGGER frame. -/
  trig : Option Nat
  /-- Last matching VALUE frame, or the start of its timeout. -/
  seen : Nat
  timedOut : Bool
  sentAt : Nat
  deriving DecidableEq, Repr

/-- A CAN FD controller (11). -/
structure Can where
  /-- 0 error active, 1 error passive, 2 bus-off. -/
  bus : Nat
  held : Bool
  map : Table MapEntry
  deriving DecidableEq, Repr

/-- A running SPIM transfer (12). -/
structure Xfer where
  sess : Nat
  entry : Nat
  select : Nat
  hold : Bool
  /-- Words to send and words the target returns. -/
  words : List Word
  miso : List Word
  page : Option (Nat × Nat)
  start : Nat
  lead : Bool
  /-- Binding in force when the transfer began. -/
  tim : Word
  fmt : Word
  deriving DecidableEq, Repr

structure Copy where
  sess : Nat
  entry : Nat
  page : Nat
  poff : Nat
  woff : Nat
  data : List Byte
  start : Nat
  deriving DecidableEq, Repr

/-- A SPI controller port (12, Table 12.14). -/
structure Spim where
  xfer : Option Xfer
  /-- Held frame: session, select, end of its last transfer. -/
  frame : Option (Nat × Nat × Nat)
  /-- SCK idle level: CPOL of the last binding used (R343). -/
  idle : Bool
  lastEnd : Nat
  aborts : Nat
  timeouts : Nat
  deriving DecidableEq, Repr

structure Xip where
  copy : Option Copy
  /-- Line numbers in the buffer of four, newest first (R353). -/
  lines : List Nat
  deriving DecidableEq, Repr

/-- What a data line of SPIM_0 shows (12, Table 12.9, R352): a weak pull, a level, the bits of the transaction, or nothing driven. -/
inductive IoLine where
  | unpowered
  | pullDown
  | pullUp
  | low
  | high
  | data
  | released
  deriving DecidableEq, Repr

/-- A Paddock lane (13, Table 13.1). -/
inductive LaneSt where
  | stopped
  | running
  | stalled
  deriving DecidableEq, Repr

structure Lane where
  st : LaneSt
  pc : Nat
  ca : BitVec 16
  cb : BitVec 16
  sh : Word
  fill : Nat
  tx : List Word
  rx : List Word
  dir : Byte
  level : Byte
  stale : Bool
  staleN : Nat
  discard : Nat
  txq : List Word
  rxq : List Word
  deriving DecidableEq, Repr

structure PkEngine where
  imem : Table Word
  length : Nat
  lanes : Byte
  tag : Word
  /-- Lane entries of the loaded header, Table 13.6. -/
  entries : Table (BitVec 64)
  merged : Nat
  deriving DecidableEq, Repr

structure Paddock where
  engines : Table PkEngine
  lane : Table Lane
  /-- Events raised and not yet accepted. -/
  raised : BitVec 64
  deriving DecidableEq, Repr

/-- A Logbook record (14, Table 14.1). -/
structure LogRec where
  seq : Nat
  code : Nat
  sev : Nat
  die : Nat
  sess : Nat
  opS : Nat
  cyc : Nat
  flags : Byte
  wall : Nat
  p1 : Nat
  p2 : Nat
  inc : Nat
  sup : Nat
  deriving DecidableEq, Repr

/-- Token bucket and pending count of one code (14, R382 to R386). -/
structure Bucket where
  /-- Tokens missing from a full bucket. -/
  used : Nat
  fillAt : Nat
  pending : Nat
  lastAt : Nat
  deriving DecidableEq, Repr

/-- A flush that commands wait for (14, R392). -/
structure FlushWait where
  sess : Nat
  entry : Nat
  tag : Nat
  upTo : Nat
  deriving DecidableEq, Repr

/-- A Tack Room snapshot (14, Table 14.8). -/
structure Snapshot where
  ev : LogRec
  body : List Byte
  logSeq : Nat
  tackSeq : Nat
  deriving DecidableEq, Repr

/-- Logbook, Tack Room and accounting (14). -/
structure Log where
  slots : Table LogRec
  lastSlot : Nat
  ring : List LogRec
  nextSeq : Nat
  buckets : Table Bucket
  drops : Table Nat
  clearSeq : Nat
  wall : Nat
  wallSet : Bool
  stepped : Bool
  wallHost : Bool
  flushAt : Nat
  urgentAt : Option Nat
  waits : List FlushWait
  opS : Nat
  cycles : Nat
  /-- SEQs of the last eight records accepted, newest first (Table 14.8). -/
  last8 : List Nat
  /-- Functions that each shed last reported lit (R405). -/
  lits : Table (List Nat)
  /-- Functions counted as lit in the running frame (R405). -/
  counted : List Nat
  tack : Table Snapshot
  tackNext : Nat
  tackPend : List (Snapshot × Nat)
  tackCodes : Table Nat
  savedOpS : Nat
  saveAt : Nat
  deriving DecidableEq, Repr

/-- The accounting record (14, Table 14.9). -/
structure Account where
  save : Nat
  opS : Nat
  cycles : Nat
  wall : Nat
  nextSeq : Nat
  clearSeq : Nat
  tackNext : Nat
  drops : Table Nat
  lampS : Table Nat
  onN : Table Nat
  deriving DecidableEq, Repr

/-- One detector (15, Table 15.3). -/
structure Det where
  raised : Bool
  cause : Bool
  injected : Bool
  escalated : Bool
  dies : BitVec 8
  inc : Nat
  /-- Instants of counted raises (R414). -/
  raises : List Nat
  /-- Position of the newest raise among all raises (the model's own count). -/
  order : Nat
  deriving DecidableEq, Repr

/-- A kind that tripped in a shadow: kind or detector, first object, number. -/
structure Trip where
  code : Nat
  p1 : Nat
  p2 : Nat
  die : Nat
  n : Nat
  deriving DecidableEq, Repr

/-- A reset shadow (15, R424, R425). -/
structure Shadow where
  block : ShadowBlock
  resumed : Option Nat
  inc : Nat
  trips : List Trip
  deriving DecidableEq, Repr

/-- An armed injection (15, R431, R432). -/
structure Injection where
  checker : Nat
  bits : Nat
  shed : Nat
  target : Nat
  inc : Nat
  at_ : Nat
  /-- Transmissions still to spoil, codes 4 and 5. -/
  left : Nat
  deriving DecidableEq, Repr

/-- The fault collector (15). -/
structure Faults where
  dets : Table Det
  nextInc : Nat
  /-- Raises made, for `Det.order`. -/
  raiseN : Nat
  shadows : List Shadow
  injection : Option Injection
  /-- Faults raised while the firmware did not run (14, R387). -/
  unrecorded : List (Nat × Nat × Nat)
  crypto : Bool
  sramBad : Bool
  mramBad : Bool
  /-- Corrections since the last ECC_CORRECTED record: 0 SRAM, 1 MRAM, 2 the sheds' memories. -/
  scrubCe : Table Nat
  /-- MRAM rewrites that wait for the NV write window (15, Table 15.5). -/
  mramWait : Nat
  deriving DecidableEq, Repr

/-- One copy of a two-copy item (16, R434). -/
structure NvCopy where
  count : Nat
  body : List Byte
  ok : Bool
  deriving DecidableEq, Repr

/-- Two copies of an item. -/
structure NvItem where
  a : Option NvCopy
  b : Option NvCopy
  deriving DecidableEq, Repr

/-- A write waiting for its turn (16, R437). -/
structure NvWrite where
  item : Nat
  body : List Byte
  sess : Nat
  entry : Nat
  tag : Nat
  opcode : Nat
  reply : List Byte
  pages : List Nat
  logs : List (Nat × Nat × Nat)
  /-- Sites whose calibration records it carries. -/
  cal : List Nat
  deriving DecidableEq, Repr

/-- A firmware slot (16, Table 16.6). Words void when none. -/
structure FwSlot where
  installed : Option Nat
  activated : Nat
  image : Table Byte
  /-- Failed R439 when last verified. -/
  bad : Bool
  /-- The slot holds the image that the part was shipped with, whose bytes the spec does not give (log entry 11). -/
  shipped : Bool
  deriving DecidableEq, Repr

/-- An install in progress (16, R441 to R444). -/
structure Install where
  sess : Nat
  version : Nat
  blocks : List Nat
  finish : Bool
  deriving DecidableEq, Repr

/-- MRAM stores and firmware management (16). -/
structure Store where
  items : Table NvItem
  queue : List NvWrite
  accA : Option Account
  accB : Option Account
  slotA : FwSlot
  slotB : FwSlot
  active : Nat
  install : Option Install
  /-- A flush or save of the device's own waits for the NV write window (R273). -/
  saveDue : Bool
  flushDue : Bool
  tackDue : Bool
  /-- The registers in force were built without a valid register copy, which is yet to be recorded (R438). -/
  defaulted : Bool
  sceneCopy : Nat
  acctCopy : Option Nat
  deriving DecidableEq, Repr

/-- The whole package. -/
structure State where
  /-- Commands waiting, first in first out. -/
  pending : List Instr
  now : Nat
  /-- Counter that the free values are applied to (the model's own). -/
  free : Nat
  variant : Variant
  /-- Registers of Table 17.7: key die × 65,536 + REG, die 255 for the yard. -/
  regs : Table Word
  power : Power
  marks : Marks
  links : Table Link
  sheds : Table Shed
  sess : Table Session
  mbx : Table Mailbox
  fns : Table FnDrive
  win : Window
  front : Front
  scene : Scene
  pat : PatYard
  diag : DiagYard
  lt : LtYard
  therm : Thermal
  net : Net
  can : Table Can
  spim : Table Spim
  xip : Xip
  pk : Paddock
  log : Log
  faults : Faults
  store : Store
  /-- Instants of auth-failed replies, by level (10, R285). -/
  authFails : Table (List Nat)
  /-- Next identity of a queue entry (the model's own). -/
  nextEntry : Nat
  /-- Mailboxes that have begun a command in the running turn of the rotation (10, R288). -/
  turn : List Nat
  deriving DecidableEq, Repr

/-! Initial contents of each part (00, R16): the values of power-on reset, before any supply is valid. -/

def LinkEnd.init : LinkEnd :=
  { txSeq := 0, rxSeq := 0, waiting := [], out := [], ctl := [], busy := 0, ctlSeq := none, ctlN := 0,
    ctlHeld := [], lastRx := 0, lastTx := 0, fired := false }

def Link.init : Link :=
  { trained := false, yard := LinkEnd.init, shed := LinkEnd.init, outage := none, outageInc := 0, lastTry := 0,
    latPend := none }

def Engine.init : Engine :=
  { st := .idle, delay := 0, inDelay := false, key := 0, j := 0, d := 0, l0 := 0, level := 0, passes := [], fade := 0,
    fadeFrom := 0, outs := [], stops := [], ended := false, clip := false, late := 0, dropped := 0 }

def Site.init : Site :=
  { residue := 0, lastG := 0, reqAt := 0, lastOn := none, debt := 0, debtTo := 0, rawOn := 0, rawOnN := 0, rawOff := 0,
    rawOffN := 0, clsOn := 0, clsOff := 0, rawOnAt := 0, rawOffAt := 0, onAt := 0, offAt := 0,
    onLive := false, offLive := false, onDue := false, offDue := false, mine := 0,
    mineOff := false, verdict := 0, offOnly := false, offObs := none, delta := 0, used := 0, tv := none, vSum := 0, vN := 0, hot := false, cal := 0,
    held := false, rtOn := 0, rtBad := false }

def Chan.init : Chan := { sample := none, ov := 0, cuts := [] }

def OutUnit.init : OutUnit := { raw := 0, rawN := 0, due := false, verdict := 0, tripped := false }

def Plan.init : Plan := { sites := [], switches := [], spread := [true, true, true, true], reasons := [0, 0, 0, 0], rows := [], overRows := [] }

def NtcIn.init : NtcIn := { tb := 0, valid := false, bad := 0, good := 0, read := false }

def Drive.init : Drive :=
  { off := true, plan := Plan.init, next := none, placing := none, period := 0, forceSpread := true, noWait := [0, 1, 2, 3],
    down := [], gs := 4096, gr := 4096, govern := false, late := false, derate := [], deratePend := [], failed := [], capture := none,
    retest := none, lit := [], checked := 8, planned := 0, periods := 0 }

def Warm.init : Warm :=
  { ntc := [], vls := [], vscan := [], rowRef := [], vbat := 0, roundAt := 0, busy := false, base := [0, 0, 0, 0, 400], baseNext := [0, 0, 0, 0, 400], tl := [], codes := [], readings := none, shedOver := false }

def Shed.init : Shed :=
  { mode := .safe, resync := false, frame := 0, markAt := 0, markIn := none, marksRx := 0, goodMarks := 0, perP := 65536,
    perN := 2, boot := true, change := none, cfgIn := [], cfg := [], cfgDrv := [], front := [], back := [],
    badWords := [], prepared := none, held := none, lastRound := 0, engines := [], ctls := [], past := [], restore := none,
    restoreCtls := [], emits := [], sites := [],
    chans := [], switches := [], boosters := [], drive := Drive.init, warm := Warm.init, mdisReport := 0, trim := 0,
    sentFallback := false, held_events := [], reloaded := false, loads := [], autoAt := none, fnPend := [] }

def Session.init : Session :=
  { isOpen := false, src := .spit, lease := 0, leaseDefault := false, last := 0, priv := .observer, events := 0, viols := [], violMax := 0, violWin := 0, nonce := none,
    keyNonce := none, cursor := 1, openSeq := 0, openTag := 0, openReply := [], cmdSeq := none, writeSeq := none }

/-- Session 0, bound to SPIT for the life of the part, with the factory values of SESS_CFG and SESS_PRIV (10, R276, R280). -/
def Session.zero : Session :=
  { Session.init with isOpen := true, lease := 200, leaseDefault := true, violMax := 32, violWin := 10, priv := .operator, events := 0x3F }

def Mailbox.init : Mailbox :=
  { slot := [], queue := [], bell := false, replies := [], events := [], lost := 0, evSeq := 0 }

def FnDrive.init : FnDrive :=
  { holder := .none, prio := 0, lapsed := false, derate := 0, st := 0, failSite := none, failVerdict := 0, lit := false,
    lampS := 0, onN := 0, acc := 0 }

def PageOwn.init : PageOwn := { owner := .free, session := 0, gen := 0, dirty := false, orphan := false }

def MapEntry.init : MapEntry := { last := none, trig := none, seen := 0, timedOut := false, sentAt := 0 }

def Can.init : Can := { bus := 0, held := false, map := [] }

def Spim.init : Spim := { xfer := none, frame := none, idle := false, lastEnd := 0, aborts := 0, timeouts := 0 }

def Lane.init : Lane :=
  { st := .stopped, pc := 0, ca := 0, cb := 0, sh := 0, fill := 0, tx := [], rx := [], dir := 0, level := 0,
    stale := false, staleN := 0, discard := 0, txq := [], rxq := [] }

def PkEngine.init : PkEngine := { imem := [], length := 0, lanes := 0, tag := 0, entries := [], merged := 0 }

def LogRec.void : LogRec :=
  { seq := 0, code := 0, sev := 0, die := 0, sess := 0, opS := 0, cyc := 0, flags := 0, wall := 0, p1 := 0, p2 := 0,
    inc := 0, sup := 0 }

def Bucket.init : Bucket := { used := 0, fillAt := 0, pending := 0, lastAt := 0 }

def Snapshot.void : Snapshot := { ev := LogRec.void, body := [], logSeq := 0, tackSeq := 0 }

def Account.factory (n : Nat) : Account :=
  { save := n, opS := 0, cycles := 0, wall := 0, nextSeq := 1, clearSeq := 1, tackNext := 1, drops := [], lampS := [],
    onN := [] }

def Det.init : Det :=
  { raised := false, cause := false, injected := false, escalated := false, dies := 0, inc := 0, raises := [],
    order := 0 }

def NvItem.init : NvItem := { a := none, b := none }

def FwSlot.init : FwSlot := { installed := none, activated := 0, image := [], bad := false, shipped := false }

def CalPoint.init : CalPoint := { sumA := 0, nA := 0, sumB := 0, nB := 0, tbSum := 0, tbN := 0, acal := 0, fs := 0, kept := false, status := 15 }

def Checkpoint.init : Checkpoint :=
  { engine := 0, frame := 0, st := 0, delay := 0, key := 0, j := 0, d := 0, l0 := 0, level := 0, passes := [], fade := 0,
    fadeFrom := 0, outs := [], stops := [] }

def Power.init : Power :=
  { vbat := false, vio := false, vcore := false, pwrEn := false, pwrEnAt := 0, phase := .held, mode := .startup,
    validAt := 0, resetLow := false, resetFlush := false, fw := false, ready := false, stable := false, warm := false,
    lossUnknown := false, lossNew := false, por := true, wakeActive := 0, idleSince := none, entry := none, wakePending := false,
    check := none, timerSince := 0, osc := false, crystal := false, fail := none, coldAt := 0, tripped := 0,
    hotTrip := false, autoExits := [], resumeAt := none, lineOff := false, failLevel := true, loadFailed := false,
    heldBack := false }

def Marks.init : Marks :=
  { running := false, boot := true, count := 0, at_ := 0, perP := 65536, perN := 2, change := none, sent := 0,
    mb := none, nameDue := false, bandPend := none }

def Scene.init : Scene :=
  { waiting := [], round := none, lastId := 0, applyMark := none, applyAt := 0, applied := [],
    heldLapses := [], heldValues := [], heldSince := none, replaced := none, safeWanted := false, safeTries := 0, restoreDue := false,
    loadTried := none, loadFails := [], heldWrites := [],
    reloads := [], lapsesFirst := [] }

def Thermal.init : Thermal :=
  { roundAt := 0, roundLen := 0, regs := none, roundDue := false, dies := [], yardCore := 0, yardMem := 0, yardNet := 0, supplies := [],
    reported := [], refBad := 0, invalid := 0, badNow := 0, everSeen := 0, fresh := true, upTimer := none, lastUp := 0, lastDown := 0,
    warned := false, armed := none, armedAt := 0, hotDue := false, hotDeferred := false, tables := [], govDue := [], govSteps := 0,
    boards := [], derateStart := true, retest := none }

def Net.init : Net :=
  { link := false, learned := [], egress := [], tokens := [], tokenAt := [], nodeSeen := [], arp := [], out := [],
    opens := [], answers := [], counter := 0, arpDue := false }

def Log.init : Log :=
  { slots := [], lastSlot := 32767, ring := [], nextSeq := 1, buckets := [], drops := [], clearSeq := 1, wall := 0,
    wallSet := false, stepped := false, wallHost := false, flushAt := 0, urgentAt := none, waits := [], opS := 0,
    cycles := 0, last8 := [], lits := [], counted := [], tack := [], tackNext := 1, tackPend := [], tackCodes := [], savedOpS := 0, saveAt := 0 }

def Faults.init : Faults :=
  { dets := [], nextInc := 1, raiseN := 0, shadows := [], injection := none, unrecorded := [], crypto := true,
    sramBad := false, mramBad := false, scrubCe := [], mramWait := 0 }

/-- The identity record body of the model's part (16, Table 16.8): a ZLK8 with every revision 1; UID, MAC, SERIAL,
DATE and TRIM zero (log entry 10). -/
def Identity.factory : List Byte :=
  List.replicate 8 0 ++ [8, 0] ++ List.replicate 6 0 ++ List.replicate 8 1 ++ List.replicate 424 0

/-- The stores of a part as it leaves the factory (14, R407; 16, Table 16.6, Table 16.9): no scene stored, no key
provisioned, slot A ACTIVE (its image stands in `slotA`), slot B INCOMPLETE. -/
def Store.factory : Store :=
  { items := [(20, { a := some ⟨1, Identity.factory, true⟩, b := some ⟨1, Identity.factory, true⟩ })],
    queue := [], accA := some (Account.factory 1), accB := some (Account.factory 2),
    slotA := { FwSlot.init with installed := some 1, shipped := true }, slotB := FwSlot.init, active := 0, install := none,
    saveDue := false, flushDue := false, tackDue := false, defaulted := false, sceneCopy := 0, acctCopy := some 1 }

/-- The package at power-on reset of a part from the factory: no supply valid, every register at its reset or factory
value, every store as at the factory. What the spec gives no value for is named in the assumption log (entries 6 to
12). -/
def State.reset : State :=
  { pending := [], now := 0, free := 0, variant := .zlk8, regs := [], power := Power.init, marks := Marks.init,
    links := [], sheds := [], sess := [(0, Session.zero)], mbx := [], fns := [], win := { mem := [], bad := [], own := [], ownGen := 0, updates := [], delayed := [] },
    front := { irqFlags := 0, irqEn := 0, winAddr := 0, scratch := 0, frameErr := false, winBusy := false, miso := [],
               winData := 0, snaps := [] },
    scene := Scene.init, pat := { trig := [], checks := [], checkAt := [], since := [], eras := [], trigPend := none },
    diag := { due := [], changes := 0, last := none }, lt := { capture := none, arrived := none, points := [], held := false }, therm := Thermal.init, net := Net.init, can := [],
    spim := [], xip := { copy := none, lines := [] }, pk := { engines := [], lane := [], raised := 0 },
    log := Log.init, faults := Faults.init, store := Store.factory, authFails := [], nextEntry := 1, turn := [] }

end Sys2Proof.Machine
end

