-- ==== Sys2Proof/Machine/Regs.lean ====
section
/-! DEFINITION. The register file of Table 17.7: which numbers exist, who may write them, which bits are RW, W1C and
RSVD, and the value each register has at power-on reset (an RW field marked CFG has its factory value, 00 R16). -/

namespace Sys2Proof.Machine

open Sys2Proof

/-- The Write column of Table 17.7. -/
inductive WriteBy where
  | ro
  | operator
  | owner
  | command
  deriving DecidableEq, Repr

/-- `count` registers from `first`, `stride` apart, of one layout. -/
structure RegRow where
  first : Nat
  count : Nat
  stride : Nat
  write : WriteBy
  rw : Nat
  w1c : Nat
  rsvd : Nat
  init : Nat
  deriving DecidableEq, Repr

/-- Yard registers, first part of Table 17.7. -/
def yardRowsA : List RegRow :=
    [⟨0x0001, 1, 1, .owner, 0xFF3F0000, 0, 0x00C0FFFF, 0xFF050000⟩,
     ⟨0x0002, 1, 1, .owner, 0xFFFF0000, 0, 0x0000FFFF, 0xF0000000⟩,
     ⟨0x0003, 1, 1, .owner, 0xFFFFFF00, 0, 0x000000FF, 0xAAB4C300⟩,
     ⟨0x0004, 1, 1, .owner, 0xFFFE0000, 0, 0x0001FFFF, 0x52940000⟩,
     ⟨0x0005, 1, 1, .owner, 0xFC000000, 0, 0x03FFFFFF, 0xB8000000⟩,
     ⟨0x0006, 1, 1, .owner, 0xFFFF0000, 0, 0x0000FFFF, 0x00AF0000⟩,
     ⟨0x0007, 1, 1, .owner, 0xFFFFFF00, 0, 0x000000FF, 0x1E558700⟩,
     ⟨0x0008, 1, 1, .owner, 0xFFFFFFE0, 0, 0x0000001F, 0xFF3E2820⟩,
     ⟨0x0009, 2, 1, .owner, 0xFFFFFFE0, 0, 0x0000001F, 0xFF3D1420⟩,
     ⟨0x000B, 1, 1, .owner, 0xFFFFFFE0, 0, 0x0000001F, 0xFF3C1400⟩,
     ⟨0x000C, 1, 1, .owner, 0xF0000000, 0, 0x0FFFFFFF, 0x10000000⟩,
     ⟨0x000D, 1, 1, .owner, 0, 0x00000020, 0x0000001F, 0x80040000⟩,
     ⟨0x000E, 1, 1, .ro, 0, 0, 0x0000000F, 0x00000480⟩,
     ⟨0x0010, 1, 1, .owner, 0xFFFF0FE7, 0, 0x0000F018, 0⟩,
     ⟨0x0011, 1, 1, .owner, 0xFFFFFFFF, 0, 0, 0⟩,
     ⟨0x0012, 1, 1, .owner, 0x00FFFFFF, 0, 0, 0⟩,
     ⟨0x0013, 1, 1, .owner, 0xFFFFFFFF, 0, 0, 0⟩,
     ⟨0x0014, 1, 1, .owner, 0, 0x000000FF, 0x00F0FE00, 0x00000080⟩,
     ⟨0x0018, 1, 1, .owner, 0xFFFFFFFF, 0, 0, 0x200A00C8⟩,
     ⟨0x0019, 1, 1, .owner, 0xFFFF03FF, 0, 0x0000FC00, 0x003F0001⟩,
     ⟨0x001A, 1, 1, .owner, 0xC0000000, 0, 0x3FFFFFFF, 0⟩,
     ⟨0x001B, 1, 1, .ro, 0, 0, 0, 0⟩,
     ⟨0x0020, 1, 1, .owner, 0xFFFFFFF0, 0, 0x0000000F, 0xBF200010⟩,
     ⟨0x0021, 1, 1, .owner, 0xFFFF0000, 0, 0x0000FFFF, 0x012C0000⟩,
     ⟨0x0022, 3, 1, .owner, 0xFFFFFF80, 0, 0x0000007F, 0x00100180⟩,
     ⟨0x0028, 1, 1, .owner, 0xFFFF0000, 0, 0x0000FFFF, 0x001F0000⟩,
     ⟨0x0029, 15, 1, .owner, 0xFFFF0000, 0, 0x0000FFFF, 0⟩,
     ⟨0x0038, 1, 1, .owner, 0xFFFFFFFF, 0, 0, 0xC0A88F0A⟩,
     ⟨0x0039, 1, 1, .owner, 0xFFFFFFFF, 0, 0, 0⟩,
     ⟨0x003A, 1, 1, .owner, 0xFFFFFF80, 0, 0x0000007F, 0x60004A00⟩,
     ⟨0x003B, 1, 1, .owner, 0xFFFFFFFF, 0, 0, 0xC22EC22F⟩,
     ⟨0x003C, 1, 1, .ro, 0, 0, 0, 0x00000001⟩,
     ⟨0x003D, 1, 1, .ro, 0, 0, 0, 0⟩]

/-- Yard registers, the rest. -/
def yardRowsB : List RegRow :=
    [⟨0x0040, 1, 1, .owner, 0xFFFFFFFC, 0, 0x00000003, 0x003E1E3C⟩,
     ⟨0x0041, 1, 1, .owner, 0xFFFFFFC0, 0, 0x0000003F, 0x038CE400⟩,
     ⟨0x0042, 1, 1, .owner, 0xE0000000, 0, 0x1FFFFFFF, 0⟩,
     ⟨0x0043, 1, 1, .owner, 0xDFFFFFFF, 0, 0x20000000, 0⟩,
     ⟨0x0044, 1, 1, .ro, 0, 0, 0, 0⟩,
     ⟨0x0048, 1, 1, .owner, 0xFFFFFFFC, 0, 0x00000003, 0x003E1E3C⟩,
     ⟨0x0049, 1, 1, .owner, 0xFFFFFFC0, 0, 0x0000003F, 0x038CE400⟩,
     ⟨0x004A, 1, 1, .owner, 0xE0000000, 0, 0x1FFFFFFF, 0⟩,
     ⟨0x004B, 1, 1, .owner, 0xDFFFFFFF, 0, 0x20000000, 0⟩,
     ⟨0x004C, 1, 1, .ro, 0, 0, 0, 0⟩,
     ⟨0x0050, 1, 1, .owner, 0xFFFFFF00, 0, 0x000000FF, 0x42581000⟩,
     ⟨0x0051, 4, 1, .ro, 0, 0, 0, 0⟩,
     ⟨0x0060, 8, 2, .command, 0xFFFFFFFF, 0, 0, 0x09000000⟩,
     ⟨0x0061, 8, 2, .command, 0xFFEFFFC0, 0, 0x0010003F, 0x03A00000⟩,
     ⟨0x0070, 8, 2, .command, 0xFFFFFFFF, 0, 0, 0x09000000⟩,
     ⟨0x0071, 8, 2, .command, 0xFFEFFFC0, 0, 0x0010003F, 0x03A00000⟩,
     ⟨0x0080, 8, 2, .command, 0xFFFFFFFF, 0, 0, 0x09000000⟩,
     ⟨0x0081, 8, 2, .command, 0xFFEFFFC0, 0, 0x0010003F, 0x03A00000⟩,
     ⟨0x0090, 1, 1, .command, 0xFFFFFFF0, 0, 0x0000000F, 0⟩,
     ⟨0x0091, 1, 1, .operator, 0x00000003, 0, 0xFFFFFFFC, 0⟩,
     ⟨0x0094, 3, 1, .ro, 0, 0, 0, 0⟩,
     ⟨0x00A0, 12, 1, .command, 0xFFE0FFE0, 0, 0x001F001F, 0⟩,
     ⟨0x00B0, 16, 1, .owner, 0, 0x00000100, 0, 0⟩,
     ⟨0x00C0, 16, 1, .ro, 0, 0, 0, 0⟩,
     ⟨0x00D0, 2, 1, .ro, 0, 0, 0, 0⟩,
     ⟨0x00D2, 2, 1, .owner, 0, 0xFFFFFFFF, 0, 0⟩,
     ⟨0x0100, 128, 1, .owner, 0xFFFFFFFF, 0, 0, 0⟩,
     ⟨0x0200, 64, 1, .command, 0xFFFFFFFF, 0, 0, 0x080A080A⟩,
     ⟨0x0240, 1, 1, .command, 0xFFFFFFFF, 0, 0, 0x4001080A⟩,
     ⟨0x0241, 113, 1, .command, 0xFFFFFFFF, 0, 0, 0x080A080A⟩,
     ⟨0x02B2, 1, 1, .command, 0xFFFFFFFF, 0, 0, 0x080A08FF⟩,
     ⟨0x02B3, 13, 1, .command, 0xFFFFFFFF, 0, 0, 0x080A080A⟩,
     ⟨0x0300, 36, 1, .owner, 0x7FFF7FFF, 0, 0x80008000, 0x40004000⟩,
     ⟨0x0400, 512, 1, .command, 0xFFFFFFFF, 0, 0, 0⟩]

/-- Shed registers of Table 17.7. -/
def shedRows : List RegRow :=
    [⟨0x1000, 1, 1, .owner, 0xFC00FFF0, 0, 0x03FF000F, 0⟩,
     ⟨0x1001, 2, 1, .owner, 0xFFFFFFFF, 0, 0, 0⟩,
     ⟨0x1003, 1, 1, .owner, 0xFF00FFFF, 0, 0x00FF0000, 0x78000000⟩,
     ⟨0x1004, 4, 1, .owner, 0xFFFFFFFF, 0, 0, 0x00001E40⟩,
     ⟨0x1008, 4, 1, .owner, 0xFFFFFFC0, 0, 0x0000003F, 0x3FF00040⟩,
     ⟨0x100C, 4, 1, .owner, 0, 0x00000010, 0x00003F00, 0⟩,
     ⟨0x1010, 8, 1, .owner, 0xFFFFFFFF, 0, 0, 0⟩,
     ⟨0x1018, 1, 1, .owner, 0xFFF8F000, 0, 0x00070FFF, 0x14780000⟩,
     ⟨0x1019, 1, 1, .owner, 0xFFFFFFFF, 0, 0, 0⟩,
     ⟨0x101A, 4, 1, .ro, 0, 0, 0, 0x80000000⟩,
     ⟨0x101E, 1, 1, .ro, 0, 0, 0, 0⟩,
     ⟨0x1020, 16, 1, .owner, 0, 0x000C0000, 0x00030000, 0xFFF00000⟩,
     ⟨0x1030, 4, 1, .owner, 0xFFFFFFFF, 0, 0, 0x03E80D6B⟩,
     ⟨0x1034, 4, 1, .owner, 0, 0x0000000C, 0x00000001, 0⟩,
     ⟨0x1038, 1, 1, .owner, 0xFFFFFFFF, 0, 0, 0x7DBE7F0A⟩,
     ⟨0x1039, 1, 1, .owner, 0xFF000000, 0, 0x0000FFFF, 0x41000000⟩,
     ⟨0x103A, 1, 1, .owner, 0xFFFFFFFF, 0, 0, 0⟩,
     ⟨0x1040, 32, 1, .owner, 0xF8F8F8F8, 0, 0x07070707, 0⟩,
     ⟨0x1060, 1, 1, .owner, 0xFFFFF000, 0, 0x00000FFF, 0x36416000⟩,
     ⟨0x1061, 1, 1, .owner, 0xFFFFFFFF, 0, 0, 0x19191919⟩,
     ⟨0x1062, 1, 1, .ro, 0, 0, 0, 0⟩,
     ⟨0x1063, 1, 1, .command, 0, 0x00000E00, 0, 0⟩,
     ⟨0x1064, 1, 1, .ro, 0, 0, 0, 0⟩,
     ⟨0x1070, 16, 1, .owner, 0, 0x00000080, 0, 0⟩]

/-- The row that lists register `n`, if any. -/
def RegRow.lists (r : RegRow) (n : Nat) : Bool :=
  r.first ≤ n && n < r.first + r.count * r.stride && (n - r.first) % r.stride == 0

/-- The row of a register number, yard or shed. -/
def regRow (n : Nat) : Option RegRow :=
  if n < 0x1000 then (yardRowsA.find? (·.lists n)).orElse fun _ => yardRowsB.find? (·.lists n)
  else shedRows.find? (·.lists n)

/-- Every register number of the yard, in rising order of its row. -/
def yardNumbers : List Nat := (yardRowsA ++ yardRowsB).flatMap fun r => (List.range r.count).map fun i => r.first + i * r.stride

/-- Every register number of a shed. -/
def shedNumbers : List Nat := shedRows.flatMap fun r => (List.range r.count).map fun i => r.first + i * r.stride

/-- The value a register has at power-on reset or in the factory configuration (00, R16). -/
def regInit (n : Nat) : Word :=
  match regRow n with
  | some r => BitVec.ofNat 32 r.init
  | none => 0

/-- The yard's die number in register keys and in `SHED` fields (17, R455). -/
def yardDie : Nat := 255

/-- Key of a register in the register file. -/
def regKey (die n : Nat) : Nat := die * 65536 + n

/-- A stored register of a die. -/
def reg (s : State) (die n : Nat) : Word := ((Table.find? s.regs (regKey die n)).getD (regInit n))

/-- A field of a stored register. -/
def regf (s : State) (die n hi lo : Nat) : Nat := (reg s die n).fld hi lo

/-- A field of a yard register. -/
def yf (s : State) (n hi lo : Nat) : Nat := regf s yardDie n hi lo

/-- Store a register; a value equal to the initial value is not listed. -/
def setReg (die n : Nat) (w : Word) (s : State) : State :=
  { s with regs := Table.put (regInit n) s.regs (regKey die n) w }

/-- Store a field of a register. -/
def setRegf (die n hi lo v : Nat) (s : State) : State := setReg die n ((reg s die n).withFld hi lo v) s

/-- Count in a field that saturates at its largest value. -/
def bumpReg (die n hi lo : Nat) (s : State) : State :=
  setRegf die n hi lo (min (regf s die n hi lo + 1) (2 ^ (hi + 1 - lo) - 1)) s

/-- Add to a saturating field. -/
def addReg (die n hi lo k : Nat) (s : State) : State :=
  setRegf die n hi lo (min (regf s die n hi lo + k) (2 ^ (hi + 1 - lo) - 1)) s

/-- The value a register takes when `w` is written to it: RW bits are set, W1C bits cleared by a 1, RO bits kept
(00, R12). -/
def writeMasked (r : RegRow) (old w : Word) : Word :=
  (old &&& ~~~(BitVec.ofNat 32 r.rw) &&& ~~~(BitVec.ofNat 32 r.w1c &&& w)) ||| (w &&& BitVec.ofNat 32 r.rw)

/-- The applied value of register `n` changes by a write of `w` (00, R12). -/
def writeReg (die n : Nat) (w : Word) (s : State) : State :=
  match regRow n with
  | some r => setReg die n (writeMasked r (reg s die n) w) s
  | none => s

/-! Names of the register numbers of Table 17.7; a group by its first number. -/

def R.frameCfg : Nat := 0x0001
def R.govCtl : Nat := 0x0002
def R.thermCfg : Nat := 0x0003
def R.thermHys : Nat := 0x0004
def R.thermCtl : Nat := 0x0005
def R.nvwCfg : Nat := 0x0006
def R.bandBnd : Nat := 0x0007
def R.bandTab : Nat := 0x0008
def R.hkCfg : Nat := 0x000C
def R.govSt : Nat := 0x000D
def R.thermSt : Nat := 0x000E
def R.nwCfg : Nat := 0x0010
def R.nwWake : Nat := 0x0011
def R.nwTimer : Nat := 0x0012
def R.nwWcode : Nat := 0x0013
def R.rstCause : Nat := 0x0014
def R.sessCfg : Nat := 0x0018
def R.sessPriv : Nat := 0x0019
def R.spitCfg : Nat := 0x001A
def R.spitErr : Nat := 0x001B
def R.netCfg : Nat := 0x0020
def R.netSw : Nat := 0x0021
def R.swPort : Nat := 0x0022
def R.swVlan : Nat := 0x0028
def R.ipAddr : Nat := 0x0038
def R.ipGw : Nat := 0x0039
def R.ipMisc : Nat := 0x003A
def R.udpPorts : Nat := 0x003B
def R.t1sPres : Nat := 0x003C
def R.netSt : Nat := 0x003D
def R.canNbt : Nat := 0x0040
def R.canDbt : Nat := 0x0041
def R.canCfg : Nat := 0x0042
def R.canJhp : Nat := 0x0043
def R.canSt : Nat := 0x0044
def R.faultCfg : Nat := 0x0050
def R.eccSt : Nat := 0x0051
def R.commitLogLo : Nat := 0x0052
def R.commitLogHi : Nat := 0x0053
def R.trgSt : Nat := 0x0054
def R.spimTim : Nat := 0x0060
def R.spimFmt : Nat := 0x0061
def R.xipCfg : Nat := 0x0090
def R.xipBank : Nat := 0x0091
def R.spimSt : Nat := 0x0094
def R.pkPinmap : Nat := 0x00A0
def R.pkLaneSt : Nat := 0x00B0
def R.pkLaneCnt : Nat := 0x00C0
def R.pkEngSt : Nat := 0x00D0
def R.pkEvtLo : Nat := 0x00D2
def R.pkEvtHi : Nat := 0x00D3
def R.fwdEntry : Nat := 0x0100
def R.logRate : Nat := 0x0200
def R.curve : Nat := 0x0300
def R.canMap : Nat := 0x0400
def R.shedCfg : Nat := 0x1000
def R.scanCfg : Nat := 0x1001
def R.scanGate : Nat := 0x1002
def R.scanAux : Nat := 0x1003
def R.sgCfg : Nat := 0x1004
def R.trimCfg : Nat := 0x1008
def R.trimSt : Nat := 0x100C
def R.xcCfg : Nat := 0x1010
def R.dimCfg : Nat := 0x1018
def R.grpCeil : Nat := 0x1019
def R.dimSt : Nat := 0x101A
def R.placeSt : Nat := 0x101E
def R.contSt : Nat := 0x1020
def R.ntcCfg : Nat := 0x1030
def R.ntcSt : Nat := 0x1034
def R.ltCfg : Nat := 0x1038
def R.ltAux : Nat := 0x1039
def R.mixCfg : Nat := 0x103A
def R.ltMap : Nat := 0x1040
def R.diagCfg : Nat := 0x1060
def R.diagLs : Nat := 0x1061
def R.diagSt : Nat := 0x1062
def R.linkSt : Nat := 0x1063
def R.govShedSt : Nat := 0x1064
def R.peSt : Nat := 0x1070

end Sys2Proof.Machine
end

