-- ==== Sys2Proof/Machine/Base.lean ====
section
/-! DEFINITION. What every operation starts from: the instant of a command (log entry 1), the dies of the variant
(00, Table 0.1), access to the tables of State, and the small readings of modes that many chapters use. -/

namespace Sys2Proof.Machine

open Sys2Proof

/-- A command at instant `t`: the model's clock moves there, and never back (log entry 1). -/
def atTime (t : Nat) (s : State) : State := { s with now := max s.now t }

/-- Sheds of a family member (00, Table 0.1). -/
def Variant.sheds : Variant → Nat
  | .zlk2 => 1
  | .zlk4 => 3
  | .zlk8 => 7

/-- Variant code (00, Table 0.1). -/
def Variant.code : Variant → Nat
  | .zlk2 => 2
  | .zlk4 => 4
  | .zlk8 => 8

/-- Number of sheds present. -/
def nSheds (s : State) : Nat := s.variant.sheds

/-- Shed `k` is present. -/
def isPresent (s : State) (k : Nat) : Bool := k < nSheds s

/-- The present sheds. -/
def present (s : State) : List Nat := List.range (nSheds s)

/-- One millisecond in the model's unit. -/
def ms : Nat := 1000000

/-- One microsecond. -/
def us : Nat := 1000

/-- One second. -/
def sec : Nat := 1000000000

/-- Ten nanoseconds, one grey clock (01). -/
def greyClock : Nat := 10

def getShed (s : State) (k : Nat) : Shed := Table.get Shed.init s.sheds k

def setShed (k : Nat) (d : Shed) (s : State) : State := { s with sheds := Table.put Shed.init s.sheds k d }

def updShed (k : Nat) (f : Shed → Shed) (s : State) : State := setShed k (f (getShed s k)) s

def getLink (s : State) (k : Nat) : Link := Table.get Link.init s.links k

def setLink (k : Nat) (l : Link) (s : State) : State := { s with links := Table.put Link.init s.links k l }

def updLink (k : Nat) (f : Link → Link) (s : State) : State := setLink k (f (getLink s k)) s

def getSess (s : State) (n : Nat) : Session := Table.get Session.init s.sess n

def setSess (n : Nat) (x : Session) (s : State) : State := { s with sess := Table.put Session.init s.sess n x }

def updSess (n : Nat) (f : Session → Session) (s : State) : State := setSess n (f (getSess s n)) s

def getMbx (s : State) (n : Nat) : Mailbox := Table.get Mailbox.init s.mbx n

def setMbx (n : Nat) (m : Mailbox) (s : State) : State := { s with mbx := Table.put Mailbox.init s.mbx n m }

def updMbx (n : Nat) (f : Mailbox → Mailbox) (s : State) : State := setMbx n (f (getMbx s n)) s

def getFn (s : State) (n : Nat) : FnDrive := Table.get FnDrive.init s.fns n

def setFn (n : Nat) (x : FnDrive) (s : State) : State := { s with fns := Table.put FnDrive.init s.fns n x }

def updFn (n : Nat) (f : FnDrive → FnDrive) (s : State) : State := setFn n (f (getFn s n)) s

def getDet (s : State) (n : Nat) : Det := Table.get Det.init s.faults.dets n

def setDet (n : Nat) (x : Det) (s : State) : State :=
  { s with faults := { s.faults with dets := Table.put Det.init s.faults.dets n x } }

def getCan (s : State) (c : Nat) : Can := Table.get Can.init s.can c

def setCan (c : Nat) (x : Can) (s : State) : State := { s with can := Table.put Can.init s.can c x }

def getSpim (s : State) (p : Nat) : Spim := Table.get Spim.init s.spim p

def setSpim (p : Nat) (x : Spim) (s : State) : State := { s with spim := Table.put Spim.init s.spim p x }

def getLane (s : State) (g : Nat) : Lane := Table.get Lane.init s.pk.lane g

def setLane (g : Nat) (x : Lane) (s : State) : State :=
  { s with pk := { s.pk with lane := Table.put Lane.init s.pk.lane g x } }

def getPk (s : State) (e : Nat) : PkEngine := Table.get PkEngine.init s.pk.engines e

def setPk (e : Nat) (x : PkEngine) (s : State) : State :=
  { s with pk := { s.pk with engines := Table.put PkEngine.init s.pk.engines e x } }

/-- The next draw of the free-value counter, and the state that has used it. -/
def draw (s : State) : Nat × State := (s.free, { s with free := s.free + 1 })

/-- Fold a list of items over the state. -/
def forAll {α : Type} (l : List α) (f : α → State → State) (s : State) : State := l.foldl (fun a x => f x a) s

/-- The device is in Cold Wait (02, Table 2.3). -/
def inCold (s : State) : Bool := decide (s.power.mode = .coldWait)

/-- The NV write window is open (09, R273; `THERM_ST.NVW_OPEN`). -/
def nvOpen (s : State) : Bool := yf s R.thermSt 7 7 == 1

/-- The crypto engine serves (15, detector 0x19). -/
def cryptoUp (s : State) : Bool := s.faults.crypto

/-- Class of a detector (15, Table 15.2): 0 NOTIFY, 1 CONTAIN, 2 SAFE, 3 SHUTDOWN. -/
def detClass (n : Nat) : Nat :=
  if [0x02, 0x08, 0x0A, 0x10, 0x11, 0x12, 0x13, 0x14, 0x15, 0x1D, 0x1E].contains n then 0
  else if [0x07, 0x1A, 0x1B, 0x1C, 0x1F].contains n then 2
  else if [0x16, 0x17, 0x18].contains n then 3
  else 1

/-- Effective class (15, R414). -/
def effClass (s : State) (n : Nat) : Nat := if (getDet s n).escalated then 2 else detClass n

/-- Detector status word (15, Table 15.3). -/
def detWord (s : State) (n : Nat) : Nat :=
  let d := getDet s n
  bit01 d.raised * 32768 + bit01 d.cause * 16384 + bit01 d.injected * 8192 + bit01 d.escalated * 4096
    + effClass s n * 1024 + d.dies.toNat

/-- `FAULT_ST_n` (15, Table 15.3). -/
def faultSt (s : State) (n : Nat) : Nat := detWord s n * 65536 + (getDet s n).inc

/-- Raised detectors. -/
def raisedDets (s : State) : List Nat := (List.range 32).filter fun n => (getDet s n).raised

/-- A raised detector has effective class `c`. -/
def classInForce (s : State) (c : Nat) : Bool := (raisedDets s).any fun n => effClass s n == c

/-- Incident of the newest raise of a detector still raised: the latest of the raised detectors in raise order
(15, Table 15.4). `Det.order` counts raises. -/
def newestInc (s : State) : Nat :=
  ((raisedDets s).foldl (fun (a : Nat × Nat) n => let d := getDet s n; if a.1 ≤ d.order then (d.order, d.inc) else a)
    (0, 0)).2

/-- `FAULT_SUM` (15, Table 15.4). -/
def faultSum (s : State) : Nat :=
  bit01 (classInForce s 3) * 2 ^ 31 + bit01 (classInForce s 2) * 2 ^ 30 + bit01 (classInForce s 1) * 2 ^ 29
    + bit01 (classInForce s 0) * 2 ^ 28 + (raisedDets s).length * 65536 + newestInc s

/-- A SAFE fault is in force (15, R412). -/
def safeOn (s : State) : Bool := classInForce s 2

/-- A SHUTDOWN fault is in force (15, R413). -/
def shutdownOn (s : State) : Bool := classInForce s 3

/-- Open sessions. -/
def openSessions (s : State) : List Nat := (List.range 16).filter fun n => (getSess s n).isOpen

/-! Limits (01, R43; 09, R269): power in mW. -/

/-- Logic allowance of a variant (01, Table 1.10). -/
def Variant.logic : Variant → Nat
  | .zlk2 => 2600
  | .zlk4 => 3300
  | .zlk8 => 4700

def steps (s : State) : Nat := yf s R.thermSt 15 12

/-- Effective limit in 0.125 W at `n` throttle steps (R269). -/
def limitAt (s : State) (n : Nat) : Nat := yf s R.govCtl 31 24 * (16 - n) / 16

/-- Output-stage allowance A at `n` throttle steps (R43). -/
def allowanceAt (s : State) (n : Nat) : Int := (limitAt s n * 125 : Nat) - (s.variant.logic : Int)

/-! The thermal registers (09, R275). -/

/-- Registers of chapter 9 whose changes apply from the next round: THERM_CFG to BAND_TAB_3, and HK_CFG. -/
def thermNumbers : List Nat := [R.thermCfg, R.thermHys, R.thermCtl, R.nvwCfg, R.bandBnd] ++ (List.range 4).map (R.bandTab + ·) ++ [R.hkCfg]

/-- A thermal register as the running round uses it. -/
def thermReg (s : State) (n : Nat) : Word :=
  match s.therm.regs with
  | some t => Table.get (regInit n) t n
  | none => reg s yardDie n

/-- A field of a thermal register as the running round uses it. -/
def tf (s : State) (n hi lo : Nat) : Nat := (thermReg s n).fld hi lo

/-- The thermal registers as they stand, for a round that starts. -/
def thermNow (s : State) : Table Word :=
  thermNumbers.filterMap fun n => if reg s yardDie n = regInit n then none else some (n, reg s yardDie n)

end Sys2Proof.Machine
end

