-- ==== Sys2Proof/Machine/Image.lean ====
section
/-! DEFINITION. The scene of a shed as the 64-bit words of its buffers (05): where each record lies (the address map is the
model's, log entry 6), the fields of function records, site attributes, channel attributes and fallback entries, and
the edits that commits make. -/

namespace Sys2Proof.Machine

open Sys2Proof

abbrev Img := Table DWord

/-! Word addresses of a shed's buffers (log entry 6). -/

def A.value : Nat := 0x0000
def A.dot : Nat := 0x0400
def A.attr : Nat := 0x1000
def A.fallback : Nat := 0x2000
def A.fn : Nat := 0x2800
/-- Program block of local engine `e` from `A.prog + 1024 e` (06). -/
def A.prog : Nat := 0x4000
/-- Configuration registers, one a word. -/
def A.cfg : Nat := 0x10000
/-- Calibration records by site (07, Table 7.7), function states by function. -/
def A.cal : Nat := 0x20000
def A.fnState : Nat := 0x31000
/-- Last word of a reload. -/
def A.done : Nat := 0x3F000
/-- Engines that a round loads, one bit each (06, R199). -/
def A.loads : Nat := 0x3C000
/-- First local share of the shed, mW (09, R267). -/
def A.share : Nat := 0x3D000

/-- The factory function record, bits 63 to 0: FLOOR 30, SLOPE 8, KNEE 95, DRIVE OPERATOR (05, R165, Table 5.3). -/
def fnFactory : DWord := BitVec.ofNat 64 (30 * 2 ^ 56 + 8 * 2 ^ 48 + 95 * 2 ^ 40 + 2 ^ 32)

/-- What a word of the buffers holds in the factory configuration. -/
def imgInit (a : Nat) : DWord := if A.fn ≤ a && a < A.fn + 512 && (a - A.fn) % 2 == 0 then fnFactory else 0

def iw (m : Img) (a : Nat) : DWord := (Table.find? m a).getD (imgInit a)

def setIw (a : Nat) (w : DWord) (m : Img) : Img := Table.put (imgInit a) m a w

/-- Bits `hi` down to `lo` of a 64-bit word. -/
def dfld (w : DWord) (hi lo : Nat) : Nat := (w.toNat >>> lo) % 2 ^ (hi + 1 - lo)

def dwith (w : DWord) (hi lo v : Nat) : DWord :=
  BitVec.ofNat 64 (w.toNat % 2 ^ lo + (v % 2 ^ (hi + 1 - lo)) * 2 ^ lo + (w.toNat >>> (hi + 1)) * 2 ^ (hi + 1))

/-- Frame value of local site `i`. -/
def frameValue (m : Img) (i : Nat) : Nat := dfld (iw m (A.value + i / 4)) (16 * (i % 4) + 15) (16 * (i % 4))

def setFrameValue (i v : Nat) (m : Img) : Img :=
  setIw (A.value + i / 4) (dwith (iw m (A.value + i / 4)) (16 * (i % 4) + 15) (16 * (i % 4)) v) m

/-- Dot correction code of local channel `c` (Table 5.4). -/
def dotOf (m : Img) (c : Nat) : Nat := dfld (iw m (A.dot + c / 8)) (8 * (c % 8) + 7) (8 * (c % 8))

def setDot (c v : Nat) (m : Img) : Img :=
  setIw (A.dot + c / 8) (dwith (iw m (A.dot + c / 8)) (8 * (c % 8) + 7) (8 * (c % 8)) v) m

/-- Site attribute of local site `i` (Table 5.5). -/
def siteAttr (m : Img) (i : Nat) : DWord := iw m (A.attr + i)

def saFnEn (w : DWord) : Bool := dfld w 15 15 == 1
def saFn (w : DWord) : Nat := dfld w 7 0
def saColour (w : DWord) : Nat := dfld w 10 8
def saPeEn (w : DWord) : Bool := dfld w 19 19 == 1
def saPe (w : DWord) : Nat := dfld w 23 20
def saExcl (w : DWord) : Nat := dfld w 31 24
def saSub (w : DWord) : Nat := dfld w 42 32
def saSubEn (w : DWord) : Bool := dfld w 47 47 == 1

/-- Function record: its low and high halves (Table 5.3). -/
def fnLo (m : Img) (n : Nat) : DWord := iw m (A.fn + 2 * n)
def fnHi (m : Img) (n : Nat) : DWord := iw m (A.fn + 2 * n + 1)

def fnDefined (m : Img) (n : Nat) : Bool := dfld (fnLo m n) 15 15 == 1
def fnRegulated (m : Img) (n : Nat) : Bool := dfld (fnLo m n) 14 14 == 1
def fnBlend (m : Img) (n : Nat) : Nat := dfld (fnLo m n) 13 12
def fnColour (m : Img) (n : Nat) : Nat := dfld (fnLo m n) 10 8
def fnPriority (m : Img) (n : Nat) : Nat := dfld (fnLo m n) 31 24
def fnDriveLv (m : Img) (n : Nat) : Nat := dfld (fnLo m n) 33 32
def fnKnee (m : Img) (n : Nat) : Nat := dfld (fnLo m n) 47 40
def fnSlope (m : Img) (n : Nat) : Nat := dfld (fnLo m n) 55 48
def fnFloor (m : Img) (n : Nat) : Nat := dfld (fnLo m n) 63 56
def fnLapseValue (m : Img) (n : Nat) : Nat := dfld (fnHi m n) 15 0
def fnLapse (m : Img) (n : Nat) : Nat := dfld (fnHi m n) 17 16

/-- Fallback entry `e` (Table 5.13). -/
def fallbackEntry (m : Img) (e : Nat) : Nat := dfld (iw m (A.fallback + e / 2)) (32 * (e % 2) + 31) (32 * (e % 2))

def setFallbackEntry (e v : Nat) (m : Img) : Img :=
  setIw (A.fallback + e / 2) (dwith (iw m (A.fallback + e / 2)) (32 * (e % 2) + 31) (32 * (e % 2)) v) m

/-- Word `w` of the program block of local engine `e` (06, Table 6.2). -/
def progWord (m : Img) (e w : Nat) : DWord := iw m (A.prog + 1024 * e + w)

/-- Applied image of shed `k`, as the yard holds it. -/
def applied (s : State) (k : Nat) : Img := Table.get [] s.scene.applied k

/-- Local sites that belong to function `n`, from the listed attributes. -/
def sitesOf (m : Img) (n : Nat) : List Nat :=
  ((m.filter fun p => A.attr ≤ p.1 && p.1 < A.attr + 2048 && saFnEn p.2 && saFn p.2 == n)).map fun p => p.1 - A.attr

/-- Local sites that belong to any function. -/
def litSites (m : Img) : List Nat :=
  ((m.filter fun p => A.attr ≤ p.1 && p.1 < A.attr + 2048 && saFnEn p.2)).map fun p => p.1 - A.attr

/-- Write of one edit into the images, shed by shed (package-wide numbers of 00, R4). -/
def applyEdit (e : Edit) (t : Table Img) : Table Img :=
  match e with
  | .value site v => Table.upd [] t (site / 2048) (setFrameValue (site % 2048) v)
  | .attr site w => Table.upd [] t (site / 2048) (setIw (A.attr + site % 2048) w)
  | .dot ch v => Table.upd [] t (ch / 128) (setDot (ch % 128) v)
  | .fn n w => (List.range 7).foldl (fun t k => Table.upd [] t k fun m =>
      setIw (A.fn + 2 * n + 1) (BitVec.ofNat 64 (w.toNat / 2 ^ 64)) (setIw (A.fn + 2 * n) (BitVec.ofNat 64 w.toNat) m)) t
  | .fallback k i w => Table.upd [] t k (setFallbackEntry i w.toNat)
  | .prog g ws => Table.upd [] t (g / 16) fun m =>
      (List.range 1024).foldl (fun m i => setIw (A.prog + 1024 * (g % 16) + i) (ws.getD i 0) m) m

def applyEdits (es : List Edit) (t : Table Img) : Table Img := es.foldl (fun t e => applyEdit e t) t

/-- Words of `new` that differ from `old` (05, R156). -/
def diffWords (old new : Img) : List (Nat × DWord) :=
  let ks := (new.map (·.1)) ++ ((old.map (·.1)).filter fun a => (Table.find? new a).isNone)
  (ks.filter fun a => iw old a ≠ iw new a).map fun a => (a, iw new a)

end Sys2Proof.Machine
end

