-- ==== Sys2Proof/Config.lean ====
section
/-! DEFINITION. The values that the spec leaves open: free values without a body, applied to the counter `State.free`
or to the operands they depend on. Nothing in Lean can evaluate them. -/

namespace Sys2Proof.Config

/-- Bytes of the random generator of the crypto engine (10, R283; 16, Table 16.10): draw and byte index (log entry 13). -/
opaque random : Nat → Nat → Byte

/-- Records already written when the supplies fail within a power-fail flush, before the bounds that R390 sets are
applied (14, R394; log entry 14). -/
opaque flushed : Nat → Nat

/-- A RESET_N pulse from 100 ns to 1 µs acts or not (02, R74; log entry 15). -/
opaque shortReset : Nat → Bool

/-- Version of the image that slot A was shipped with (16, Table 16.5; log entry 11). -/
opaque shippedVersion : Word

/-- Security version of that image (log entry 11). -/
opaque shippedSvn : BitVec 16

/-- JHP version of that image (17, Table 17.12; log entry 11). -/
opaque shippedJhp : Byte

/-- Bytes of that image, where a command could show them (log entry 11). -/
opaque shippedByte : Nat → Byte

/-- SHA-256 of the two Virone root keys in the boot ROM (16, R439; log entry 12). -/
opaque rootKeyHash : Nat → List Byte

/-- UID bytes of a part with no valid identity record (16, R446; log entry 10). -/
opaque fuseUid : Nat → Byte

/-- Rounding of an NTC temperature within the accuracy that 07 R202 states (log entry 16). -/
opaque ntcError : Nat → Nat

/-- Words that a read of a shed returns at an address the spec gives no content (01, R33; log entry 6). -/
opaque shedWord : Nat → Nat → DWord

/-- A rail within its trip band trips SUPPLY_OV or not (18, R464; log entry 23). -/
opaque ovTrip : Nat → Bool

/-- Code of each kind of EVENT, which the spec does not give (01, Table 1.5; log entry 185). -/
opaque eventCode : Nat → Word

/-- Time in ns for which the generation word of a device-written page is odd, for the page and the instant of the write; at most 20 µs (10,
R300; log entry 206). -/
opaque updateTime : Nat → Nat → Nat

end Sys2Proof.Config
end

