-- ==== Sys2Proof/Machine/LogOps.lean ====
section
/-! DEFINITION. Logbook, Tack Room and accounting (14): rate limiting, the staging ring and its coalescing, record
writes into the slots, snapshots, the start scan and the accounting record. -/

namespace Sys2Proof.Machine

open Sys2Proof

/-- `LOG_RATE` entry of a code: depth and refill (14, R382, Table 14.4). -/
def rateEntry (s : State) (code : Nat) : Nat × Nat :=
  let i := 32 * (code / 256) + code % 256
  let w := reg s yardDie (R.logRate + i / 2)
  if i % 2 == 0 then (w.fld 15 8, w.fld 7 0) else (w.fld 31 24, w.fld 23 16)

/-- A bucket brought up to now: one token per REFILL × 0.1 s (R382). -/
def refill (s : State) (code : Nat) : Bucket :=
  let b := Table.get Bucket.init s.log.buckets code
  let step := (rateEntry s code).2 * 100000000
  if b.used = 0 then { b with fillAt := s.now }
  else if step = 0 then { b with used := 0, fillAt := s.now }
  else
    let n := (s.now - b.fillAt) / step
    if n ≥ b.used then { b with used := 0, fillAt := s.now }
    else { b with used := b.used - n, fillAt := b.fillAt + n * step }

def setBucket (code : Nat) (b : Bucket) (s : State) : State :=
  { s with log := { s.log with buckets := Table.put Bucket.init s.log.buckets code b } }

/-- Record flags of the present power cycle (Table 14.2, STEPPED and WALL_SET). -/
def cycleFlags (s : State) : Nat := bit01 s.log.stepped * 128 + bit01 s.log.wallSet * 64

/-- A record is a summary (Table 14.2). -/
def LogRec.isSummary (r : LogRec) : Bool := r.flags.toNat.testBit 5

/-- Codes of the staged NOTE and WARN records. -/
def lowCodes (ring : List LogRec) : List Nat := (ring.filter fun r => r.sev ≤ 1).map (·.code)

/-- The code with the most staged NOTE and WARN records, at least two, the lower code on a tie (R388). -/
def coalesceCode (ring : List LogRec) : Option Nat :=
  let cs := lowCodes ring
  let best := cs.foldl (fun (a : Nat × Nat) c =>
    let n := cs.count c
    if a.1 < n || (n == a.1 && c < a.2) then (n, c) else a) (0, 0)
  if best.1 ≥ 2 then some best.2 else none

/-- The summary record of R388. -/
def summaryOf (rs : List LogRec) (first last : LogRec) : LogRec :=
  { last with
    sev := maxN (rs.map (·.sev))
    flags := BitVec.ofNat 8 ((rs.map (·.flags.toNat)).foldl (· ||| ·) 32)
    p1 := if first.isSummary && first.p1 ≠ 0 then first.p1 else first.seq
    p2 := last.seq
    inc := 0
    sup := min 65535 (sumN (rs.map fun r => if r.isSummary then r.sup else 1 + r.sup)) }

/-- Coalescing of one code: its records leave, the summary stands in the place of the last (R388). -/
def coalesce (ring : List LogRec) (c : Nat) : List LogRec :=
  let mine := fun (r : LogRec) => r.sev ≤ 1 && r.code == c
  let rs := ring.filter mine
  match rs.head?, rs.getLast? with
  | some f, some l =>
    ring.filterMap fun r => if mine r then (if r.seq == l.seq then some (summaryOf rs f l) else none) else some r
  | _, _ => ring

/-- A drop counter counts (R389, R391). -/
def countDrop (sev : Nat) (s : State) : State :=
  { s with log := { s.log with
      drops := Table.put 0 s.log.drops sev (min 0xFFFFFFFF (Table.get 0 s.log.drops sev + 1)) } }

/-- The staged record of severity `v` with the highest SEQ: the last one, the ring being in SEQ order. -/
def lastOfSev (ring : List LogRec) (v : Nat) : Option LogRec := (ring.filter fun r => r.sev == v).getLast?

/-- Staging of an accepted record (R387 to R389). -/
def stage (r : LogRec) (s : State) : State :=
  let ring := if s.log.ring.length < 128 then s.log.ring else
    match coalesceCode s.log.ring with
    | some c => coalesce s.log.ring c
    | none => s.log.ring
  if ring.length < 128 then { s with log := { s.log with ring := ring ++ [r] } }
  else if r.sev ≤ 1 then countDrop r.sev s
  else
    match (lastOfSev ring 0).orElse fun _ => lastOfSev ring 1 with
    | some v => countDrop v.sev { s with log := { s.log with ring := ring.filter (fun x => x.seq != v.seq) ++ [r] } }
    | none => countDrop r.sev s

/-- Acceptance of a record: SEQ, counters, staging, and the urgent flush of a FAULT or CRITICAL record (R380, R387,
R392). -/
def acceptRec (code sev die sess p1 p2 inc sup flags : Nat) (s : State) : State :=
  let r : LogRec :=
    { seq := s.log.nextSeq, code := code, sev := sev, die := die, sess := sess, opS := s.log.opS, cyc := s.log.cycles,
      flags := BitVec.ofNat 8 (cycleFlags s + flags), wall := s.log.wall, p1 := p1 % 2 ^ 32, p2 := p2 % 2 ^ 32,
      inc := inc, sup := sup }
  let s := stage r s
  { s with log := { s.log with
      nextSeq := seqNext r.seq
      last8 := (r.seq :: s.log.last8).take 8
      urgentAt := if sev ≥ 2 then some (s.log.urgentAt.getD s.now) else s.log.urgentAt } }

/-- A temperature of the snapshot (Table 14.8). -/
def tempBytes (t : Int) : List Byte := le 2 (tempCode 16 t)

/-- Bytes 32 to 247 of a snapshot (Table 14.8), taken now. -/
def snapshotBody (s : State) (fwVersion : Nat) : List Byte :=
  [s.therm.yardCore, s.therm.yardMem, s.therm.yardNet].flatMap tempBytes
  ++ (List.range 7).flatMap (fun k =>
      if isPresent s k then tempBytes (Table.get 0 s.therm.dies (k + 1)) else [0, 0])
  ++ (List.range 4).flatMap (fun i => le 2 (s.therm.supplies.getD i 0))
  ++ le 4 (reg s yardDie R.govSt).toNat ++ le 4 (reg s yardDie R.thermSt).toNat ++ le 4 (reg s yardDie R.govCtl).toNat
  ++ le 4 (faultSum s) ++ le 4 (reg s yardDie R.rstCause).toNat ++ le 4 s.marks.count.toNat
  ++ [(match s.power.mode with | .update => 1 | .coldWait => 2 | _ => 0 : Byte)]
  ++ le 1 (openSessions s).length ++ zeros 2
  ++ (List.range 8).flatMap (fun i => le 4 (s.log.last8.getD i 0))
  ++ (List.range 7).flatMap (fun k => le 4 (if isPresent s k then (reg s k R.linkSt).toNat else 0))
  ++ (List.range 32).flatMap (fun n => le 2 (detWord s n))
  ++ le 4 fwVersion ++ zeros 32

/-- Version of the running image (16, Table 16.5). -/
def imageVersion (f : FwSlot) : Nat :=
  if f.shipped then Config.shippedVersion.toNat else ofLe (Table.range 0 f.image 8 4)

def activeSlot (s : State) : FwSlot := if s.store.active = 0 then s.store.slotA else s.store.slotB

def fwVersion (s : State) : Nat := imageVersion (activeSlot s)

/-- A CRITICAL record gets its snapshot, except a code that has one within the last 60 s (R402). The context is that of
the record's acceptance. -/
def snapshot (r : LogRec) (body : List Byte) (s : State) : State :=
  let last := Table.get 0 s.log.tackCodes r.code
  if last ≠ 0 && s.now < last - 1 + 60 * sec then s
  else { s with log := { s.log with
          tackPend := s.log.tackPend ++ [({ ev := { r with seq := 0 }, body := body, logSeq := r.seq, tackSeq := 0 }, s.now)]
          tackCodes := Table.put 0 s.log.tackCodes r.code (s.now + 1) } }

/-- The newest record in the ring, or a void one. -/
def newestRec (s : State) : LogRec := (s.log.ring.getLast?).getD LogRec.void

/-- The Logbook accepts records only while the firmware runs (R387). -/
def logging (s : State) : Bool := s.power.fw

/-- An event arrives at the Logbook: rate limit, acceptance or suppression, and the snapshot of a CRITICAL record
(R383, R384, R402). -/
def logFull (code sev die sess p1 p2 inc flags : Nat) (s : State) : State :=
  if !logging s then s
  else if sev ≥ 3 then
    let body := snapshotBody s (fwVersion s)
    let b := refill s code
    let s := acceptRec code sev die sess p1 p2 inc b.pending flags s
    let s := setBucket code { b with pending := 0, lastAt := s.now } s
    snapshot { newestRec s with seq := (s.log.last8.getD 0 0) } body s
  else
    let b := refill s code
    let (burst, refillN) := rateEntry s code
    if burst ≠ 0 && (refillN = 0 || b.used < burst) then
      let s := acceptRec code sev die sess p1 p2 inc b.pending flags s
      setBucket code { b with used := if refillN = 0 then 0 else b.used + 1, pending := 0, lastAt := s.now } s
    else setBucket code { b with pending := min 65535 (b.pending + 1), lastAt := b.lastAt } s

/-- Event of the yard, no session, no incident. -/
def log (code sev p1 p2 : Nat) (s : State) : State := logFull code sev 0 255 p1 p2 0 0 s

/-- Event with die, session and incident. -/
def logX (code sev die sess p1 p2 inc : Nat) (s : State) : State := logFull code sev die sess p1 p2 inc 0 s

/-- Newest SEQ accepted: the one before the next. -/
def newestSeq (s : State) : Nat := if s.log.nextSeq = 1 then 0xFFFFFFFF else s.log.nextSeq - 1

/-- A slot's record is visible (R380, R390). -/
def visible (s : State) (r : LogRec) : Bool :=
  r.seq ≠ 0 && !seqBefore r.seq s.log.clearSeq && (newestSeq s + 2 ^ 32 - r.seq) % 2 ^ 32 < 2 ^ 31

/-- First slot after `i` without a visible record, within `n` tries (R391). -/
def freeSlot (s : State) (i n : Nat) : Option Nat :=
  match n with
  | 0 => none
  | m + 1 =>
    let j := (i + 1) % 32768
    if visible s (Table.get LogRec.void s.log.slots j) then freeSlot s j m else some j

/-- The visible record with the oldest SEQ of severity at most `sev`, by slot (R391). -/
def oldestSlot (s : State) (sev : Nat) : Option Nat :=
  (s.log.slots.foldl (fun (a : Option (Nat × Nat)) p =>
    if visible s p.2 && p.2.sev ≤ sev then
      match a with
      | some (_, q) => if seqBefore p.2.seq q then some (p.1, p.2.seq) else a
      | none => some (p.1, p.2.seq)
    else a) none).map (·.1)

/-- Write of a record into a Logbook slot (R390, R391). -/
def writeSlot (r : LogRec) (s : State) : State :=
  match (freeSlot s s.log.lastSlot 32768).orElse fun _ => oldestSlot s r.sev with
  | some i => { s with log := { s.log with slots := Table.put LogRec.void s.log.slots i r, lastSlot := i } }
  | none => countDrop r.sev s

/-- Writes wait (R393; 09, R271): the NV write window is closed, or the device is between a comparator trip and Cold Wait exit. -/
def flushHeld (s : State) : Bool := !nvOpen s || s.power.hotTrip

/-- The flush of a power-fail runs: every other MRAM write waits for its end (02, R86). -/
def flushRuns (s : State) : Bool := match s.power.fail with | some f => !f.flushed | none => false

/-- Writes of the yard's own wait: the window, a trip, or a power-fail (R393; 02, R86; 16, R436). -/
def writesWait (s : State) : Bool := flushHeld s || s.power.fail.isSome

/-- The yard reads above 165 °C: hot writes are held back (09, R271). Readings in 1/16 K of °C. -/
def yardHot (s : State) : Bool := decide (max s.therm.yardCore (max s.therm.yardMem s.therm.yardNet) > 165 * 16)

/-- Every staged record is written, in ascending SEQ, with the given flags added (R392, R393). -/
def writeRing (flags : Nat) (s : State) : State :=
  let s := forAll s.log.ring (fun r s => writeSlot { r with flags := BitVec.ofNat 8 (r.flags.toNat ||| flags) } s) s
  { s with log := { s.log with ring := [], flushAt := s.log.opS, urgentAt := none } }

/-- The highest severity below CRITICAL that Table 14.3 lets a code have; 0 for NOTE codes. -/
def codeSev (code : Nat) : Nat :=
  if [0x0008, 0x0405, 0x0B01].contains code then 2
  else if [0x0002, 0x0003, 0x0004, 0x0005, 0x0009, 0x0103, 0x0105, 0x0201, 0x0301, 0x0401, 0x0402, 0x0403, 0x0404,
      0x0407, 0x040B, 0x040D, 0x040E, 0x040F, 0x0501, 0x0503, 0x0506, 0x0601, 0x0602, 0x0604, 0x0605, 0x0801, 0x0802,
      0x0902, 0x0905, 0x0906, 0x0A03, 0x0A05, 0x0B03].contains code then 1
  else 0

/-- Releases of suppressed counts whose code has accepted nothing for 60 s (R386). -/
def releaseSuppressed (s : State) : State :=
  forAll ((s.log.buckets.filter fun p => p.2.pending ≠ 0 && p.2.lastAt + 60 * sec ≤ s.now).map (·.1)) (fun c s =>
    let b := Table.get Bucket.init s.log.buckets c
    if logging s then
      setBucket c { b with pending := 0, lastAt := s.now } (acceptRec c (codeSev c) 0 255 0 0 0 b.pending 32 s)
    else s) s

/-- Tables of lamp-on seconds and on counts (14, R405). -/
def lampTable (s : State) : Table Nat := s.fns.filterMap fun p => if p.2.lampS = 0 then none else some (p.1, p.2.lampS)

def onTable (s : State) : Table Nat := s.fns.filterMap fun p => if p.2.onN = 0 then none else some (p.1, p.2.onN)

/-- SAVE of an accounting copy, 0 for an invalid one. -/
def saveOf (a : Option Account) : Nat := match a with | some x => x.save | none => 0

/-- The newer valid accounting copy: the one with the larger SAVE (R407). -/
def newerAccount (s : State) : Option Account :=
  if saveOf s.store.accA < saveOf s.store.accB then s.store.accB else s.store.accA

/-- The accounting record as it stands (Table 14.9). -/
def accountNow (s : State) (save : Nat) : Account :=
  { save := save, opS := s.log.opS, cycles := s.log.cycles, wall := s.log.wall, nextSeq := s.log.nextSeq,
    clearSeq := s.log.clearSeq, tackNext := s.log.tackNext, drops := s.log.drops, lampS := lampTable s,
    onN := onTable s }

/-- Write of the accounting record into the other copy (R407, R435). -/
def accountSave (s : State) : State :=
  let toB := saveOf s.store.accB ≤ saveOf s.store.accA && s.store.accA.isSome
  let a := accountNow s (seqNext (max (saveOf s.store.accA) (saveOf s.store.accB)))
  { s with
    store := (if toB then { s.store with accB := some a, saveDue := false }
      else { s.store with accA := some a, saveDue := false })
    log := { s.log with savedOpS := s.log.opS, saveAt := s.log.opS } }

/-- An accounting write at its time, or held until the window opens (R407; 09, R273). -/
def accountWrite (s : State) : State :=
  if writesWait s then { s with store := { s.store with saveDue := true } } else accountSave s

/-- The Tack Room slot for the next snapshot (R401). The ring slot after the newest is void. -/
def tackSlot (seq : Nat) : Nat := if seq ≤ 64 then seq - 1 else 64 + (seq - 65) % 960

/-- Commit of a snapshot, with the void slot that follows it in the ring (R400, R401). An armed record in its slot is written into the
next one (R402). -/
def tackCommit (x : Snapshot) (s : State) : State :=
  let q := s.log.tackNext
  let i := tackSlot q
  let next := tackSlot (q + 1)
  let t := Table.put Snapshot.void s.log.tack i { x with tackSeq := q }
  let moved := if s.therm.armed = some i then some (Table.get Snapshot.void s.log.tack i) else none
  let t := if q ≤ 64 then t else Table.put Snapshot.void t next Snapshot.void
  let s := match moved with
    | some a => { s with log := { s.log with tack := Table.put Snapshot.void t next a }, therm := { s.therm with armed := some next } }
    | none => { s with log := { s.log with tack := t } }
  { s with log := { s.log with tackNext := q + 1 } }

/-- Largest of a list of SEQs under R380's order. -/
def newestOf (l : List Nat) : Nat := l.foldl (fun a b => if a = 0 || seqBefore a b then b else a) 0

/-- The start scan (R395): operating seconds, power-cycle count, next SEQ, and the counts taken from the accounting
copy. `newCycle` is false at a controller warm reset, which makes no scan. -/
def startScan (s : State) : State :=
  let acc := (newerAccount s).getD { Account.factory 0 with save := 0 }
  let l := { s.log with
    clearSeq := acc.clearSeq, drops := acc.drops, wall := acc.wall, wallHost := acc.wall ≠ 0, wallSet := false,
    stepped := false, ring := [], buckets := [], waits := [], urgentAt := none, tackPend := [], tackCodes := [],
    last8 := [] }
  -- visibility at the scan is judged against the newest SEQ in the slots
  let newest := newestOf ((l.slots.map (·.2.seq)).filter (· ≠ 0))
  let s := { s with log := { l with nextSeq := if newest = 0 then 1 else seqNext newest } }
  let vis := (s.log.slots.map (·.2)).filter (visible s)
  let snaps := s.log.tack.map (·.2)
  let newestVis := newestOf (vis.map (·.seq))
  let newestTack := newestOf (snaps.map (·.logSeq))
  let lost := newestVis ≠ 0 && !seqBefore newestVis acc.nextSeq
  let next := newestOf [acc.nextSeq, if newestVis = 0 then 0 else seqNext newestVis,
    if newestTack = 0 then 0 else seqNext newestTack]
  let next := if lost then seqAdd next 128 else next
  let opS := maxN (acc.opS :: (vis.map (·.opS) ++ snaps.map (·.ev.opS)))
  let cyc := maxN (acc.cycles :: (vis.map (·.cyc) ++ snaps.map (·.ev.cyc)))
  { s with
    log := { s.log with
      opS := opS, cycles := (cyc + 1) % 2 ^ 24, nextSeq := next, flushAt := opS, saveAt := acc.opS, savedOpS := acc.opS,
      wall := if acc.wall = 0 then 0 else (acc.wall + (opS - acc.opS)) % 2 ^ 32
      tackNext := max acc.tackNext ((maxN (snaps.map (·.tackSeq))) + 1) }
    fns := ((List.range 256).foldl (fun (t : Table FnDrive) f =>
      Table.put FnDrive.init t f { Table.get FnDrive.init s.fns f with
        lampS := Table.get 0 acc.lampS f, onN := Table.get 0 acc.onN f, acc := 0, lit := false }) s.fns)
    power := { s.power with lossUnknown := s.power.lossUnknown || (s.power.por && lost) } }

/-- Slots with a non-zero but invisible commit word, for LOG_TORN (R395; log entry 17). -/
def tornCount (s : State) : Nat := ((s.log.slots.map (·.2)).filter fun r => r.seq ≠ 0 && !visible s r).length

/-- Bytes of a record (Table 14.1). -/
def recBytes (r : LogRec) (staged : Bool) : List Byte :=
  le 4 r.seq ++ le 2 r.code ++ le 2 (r.sev * 4096 + r.die * 256 + r.sess) ++ le 4 r.opS
  ++ le 4 (r.cyc % 2 ^ 24 + (r.flags.toNat ||| bit01 staged) * 2 ^ 24) ++ le 4 r.wall ++ le 4 r.p1 ++ le 4 r.p2
  ++ le 4 (r.inc * 65536 + r.sup)

/-- Bytes of a snapshot (Table 14.8). -/
def snapBytes (x : Snapshot) : List Byte :=
  if x.logSeq = 0 then zeros 256
  else recBytes x.ev false ++ padTo 216 x.body ++ le 4 x.logSeq ++ le 3 x.tackSeq ++ [0x54]

/-- Insertion in SEQ order. -/
def insertRec (x : LogRec × Bool) : List (LogRec × Bool) → List (LogRec × Bool)
  | [] => [x]
  | y :: r => if seqBefore y.1.seq x.1.seq then y :: insertRec x r else x :: y :: r

/-- Visible records and staged ones, in ascending SEQ from `from_` on (R397). The flag says staged. -/
def logView (s : State) : List (LogRec × Bool) :=
  let m := ((s.log.slots.map (·.2)).filter (visible s)).map (fun r => (r, false))
  (m.foldr (insertRec) []) ++ s.log.ring.map (fun r => (r, true))

/-- The oldest visible record's SEQ, or the next SEQ (14, Reading and clearing). -/
def oldestVisible (s : State) : Nat := match logView s with | (r, _) :: _ => r.seq | [] => s.log.nextSeq

end Sys2Proof.Machine
end

