-- ==== Sys2Proof/Machine/FnOps.lean ====
section
/-! DEFINITION. Who drives a function (10, R292 to R294; 11, R332) and how a function nobody drives lapses (05, R149). -/

namespace Sys2Proof.Machine

open Sys2Proof

/-- The applied function map, which every shed holds alike; the yard reads it from its image of SHED_0. -/
def fnMap (s : State) : Img := applied s 0

/-- Word `w` of message map entry `i` of controller `c` (17, Table 17.7). -/
def mapWord (s : State) (c i w : Nat) : Word := reg s yardDie (R.canMap + 256 * c + 4 * i + w)

def mapValid (s : State) (c i : Nat) : Bool := (mapWord s c i 0).bit 31
def mapKind (s : State) (c i : Nat) : Nat := (mapWord s c i 2).fld 7 0
def mapByte (s : State) (c i : Nat) : Nat := (mapWord s c i 2).fld 15 8
def mapShift (s : State) (c i : Nat) : Nat := (mapWord s c i 2).fld 23 21
def mapWidth (s : State) (c i : Nat) : Nat := (mapWord s c i 2).fld 20 16 + 1
def mapTarget (s : State) (c i : Nat) : Nat := (mapWord s c i 2).fld 31 24
def mapPrio (s : State) (c i : Nat) : Nat := (mapWord s c i 3).fld 7 0
def mapTime (s : State) (c i : Nat) : Nat := (mapWord s c i 3).fld 31 16

/-- Every entry of both maps. -/
def mapAll : List (Nat × Nat) := (List.range 2).flatMap fun c => (List.range 64).map fun i => (c, i)

def mapRun (s : State) (c i : Nat) : MapEntry := Table.get MapEntry.init (getCan s c).map i

def setMapRun (c i : Nat) (e : MapEntry) (s : State) : State :=
  let x := getCan s c
  setCan c { x with map := Table.put MapEntry.init x.map i e } s

/-- A VALUE entry that may act: its function is DEFINED and needs no more than OPERATOR (11, R332). -/
def mapActive (s : State) (c i : Nat) : Bool :=
  mapValid s c i && mapKind s c i == 0 && fnDefined (fnMap s) (mapTarget s c i) && fnDriveLv (fnMap s) (mapTarget s c i) ≤ 1

/-- The VALUE entry that names function `f`. -/
def mapOf (s : State) (f : Nat) : Option (Nat × Nat) :=
  mapAll.find? fun p => mapValid s p.1 p.2 && mapKind s p.1 p.2 == 0 && mapTarget s p.1 p.2 == f

/-- The function state changes and its lapse is queued for the next round (R149), with its record (14, Table 14.3). -/
def lapseFn (f : Nat) (s : State) : State :=
  let s := log 0x0203 0 f (fnLapse (fnMap s) f) s
  let s := updFn f (fun x => { x with lapsed := true }) s
  { s with scene := { s.scene with
      heldLapses := s.scene.heldLapses.filter (· ≠ f) ++ [f], heldValues := Table.drop s.scene.heldValues f } }

/-- A driver takes the function: no lapse of it waits any more (R149). -/
def holdFn (f : Nat) (h : Holder) (prio : Nat) (s : State) : State :=
  let s := updFn f (fun x => { x with holder := h, prio := prio, lapsed := false }) s
  { s with scene := { s.scene with heldLapses := s.scene.heldLapses.filter (· ≠ f) } }

/-- A function leaves its driver: the map holder retakes it at once with no lapse when its last value has not timed out,
otherwise the function is driven by nobody and lapses (11, R332; 05, R149). -/
def releaseFn (f : Nat) (s : State) : State :=
  match mapOf s f with
  | some (c, i) =>
    if mapActive s c i && !(mapRun s c i).timedOut then holdFn f .map (mapPrio s c i) s
    else lapseFn f (updFn f (fun x => { x with holder := .none, prio := 0 }) s)
  | none => lapseFn f (updFn f (fun x => { x with holder := .none, prio := 0 }) s)

/-- Functions that session `n` drives. -/
def drivenBy (s : State) (n : Nat) : List Nat := (s.fns.filter fun p => p.2.holder = .session n).map (·.1)

/-- The request of one entry of the map; a session that loses the function is listed (11, R332; 10, R292). -/
def mapStep (a : State × List (Nat × Nat)) (p : Nat × Nat) : State × List (Nat × Nat) :=
  let s := a.1
  let f := mapTarget s p.1 p.2
  if mapActive s p.1 p.2 then
    match (getFn s f).holder with
    | .session n =>
      if (getFn s f).prio < mapPrio s p.1 p.2 then (holdFn f .map (mapPrio s p.1 p.2) s, a.2 ++ [(n, f)]) else a
    -- the map keeps what it drives, a lapse that waits with it (R333)
    | .map => (updFn f (fun x => { x with prio := mapPrio s p.1 p.2 }) s, a.2)
    | .none => (holdFn f .map (mapPrio s p.1 p.2) s, a.2)
  else a

/-- The map holder requests the functions of its VALUE entries under the grant rule (11, R332; 10, R292). Sessions that
lose a function are listed. -/
def mapRequest (s : State) : State × List (Nat × Nat) := mapAll.foldl mapStep (s, [])

end Sys2Proof.Machine
end

