-- ==== Sys2Proof/Machine/WinOps.lean ====
section
/-! DEFINITION. The shared window (10, R295 to R300; 17, Table 17.9): page kinds, ownership changes, reads, window writes
and the writes of device-written pages. -/

namespace Sys2Proof.Machine

open Sys2Proof

/-- Hostable pages (R295). -/
def hostable (p : Nat) : Bool :=
  (0x10 ≤ p && p < 0x30 && p % 8 ≠ 7) || (0x30 ≤ p && p ≤ 0x88) || (0x90 ≤ p && p ≤ 0xEF)

/-- Device-written pages (R295). -/
def devPage (p : Nat) : Bool := p ≤ 6

def getOwn (s : State) (p : Nat) : PageOwn := Table.get PageOwn.init s.win.own p

def setOwn (p : Nat) (o : PageOwn) (s : State) : State :=
  { s with win := { s.win with own := Table.put PageOwn.init s.win.own p o } }

/-- The page is HOST to session `n`. -/
def holds (s : State) (n p : Nat) : Bool := hostable p && (getOwn s p).owner == .host && (getOwn s p).session == n

/-- Code of an owner (Table 10.8). -/
def Owner.code : Owner → Nat
  | .free => 0
  | .host => 1
  | .device => 2
  | .locked => 3

/-- Ownership entry of a page (Table 10.8). A page that is not hostable reads DEVICE. -/
def ownEntry (s : State) (p : Nat) : Nat :=
  let o := getOwn s p
  if hostable p then bit01 o.dirty * 2 ^ 26 + 2 ^ 24 + o.session * 2 ^ 20 + o.owner.code * 2 ^ 16 + o.gen.toNat
  else bit01 (devPage p) * 2 ^ 25 + 2 * 2 ^ 16

/-- A write of a device-written page is in progress (R300). -/
def updating (s : State) (p : Nat) : Bool := match Table.find? s.win.updates p with | some (t, _) => decide (s.now < t) | none => false

/-- Generation word of a device-written page once no write of it is in progress. -/
def evenGen (s : State) (p : Nat) : Nat := if p = 1 then s.win.ownGen else ofLe (Table.range 0 s.win.mem (p * 4096) 4)

/-- Generation word of a device-written page: odd during a write (R300). -/
def pageGen (s : State) (p : Nat) : Nat := if updating s p then (evenGen s p + 2 ^ 32 - 1) % 2 ^ 32 else evenGen s p

/-- One byte of a page: the ownership table is formed from the entries, reserved pages read zero (R457). -/
def winByte (s : State) (p off : Nat) : Byte :=
  if devPage p && off < 4 then BitVec.ofNat 8 (pageGen s p >>> (8 * off))
  else if p = 1 then
    if 16 ≤ off && off < 1040 then BitVec.ofNat 8 (ownEntry s ((off - 16) / 4) >>> (8 * ((off - 16) % 4))) else 0
  else if hostable p || devPage p then Table.get 0 s.win.mem (p * 4096 + off)
  else 0

/-- Bytes of a page. -/
def readPage (s : State) (p off n : Nat) : List Byte := (List.range n).map fun i => winByte s p (off + i)

/-- Bytes of a page as they stood before a write in progress (R307). -/
def readBefore (s : State) (p off n : Nat) : List Byte :=
  match Table.find? s.win.updates p with
  | some (t, old) => if s.now < t then slice old off n else readPage s p off n
  | none => readPage s p off n

/-- A write of a device-written page begins; its generation word is odd for a free time of at most 20 µs (R300). -/
def beginUpdate (p : Nat) (s : State) : State :=
  let old := readBefore s p 0 4096
  { s with win := { s.win with updates := Table.put (0, []) s.win.updates p (s.now + Config.updateTime p s.now % 20001, old) } }

/-- A change of owner increments GEN (R296); the ownership table is updated as a device-written page (R300). -/
def changeOwner (p : Nat) (w : Owner) (n : Nat) (s : State) : State :=
  let o := getOwn s p
  let s := setOwn p { owner := w, session := if w = .free then 0 else n, gen := o.gen + 1,
                      dirty := if w = .host then false else o.dirty, orphan := false } (beginUpdate 1 s)
  { s with win := { s.win with ownGen := (s.win.ownGen + 2) % 2 ^ 32 } }

/-- DIRTY of a page, as a device write of the ownership table where it changes (R297, R300). -/
def setDirty (p : Nat) (s : State) : State :=
  let o := getOwn s p
  if o.dirty then s
  else
    let s := setOwn p { o with dirty := true } (beginUpdate 1 s)
    { s with win := { s.win with ownGen := (s.win.ownGen + 2) % 2 ^ 32 } }

/-- Raw store into a page. The words that it touches are rewritten and read clean. -/
def storePage (p off : Nat) (bs : List Byte) (s : State) : State :=
  let a := p * 4096 + off
  { s with win := { s.win with
    mem := Table.putAll 0 s.win.mem a bs
    bad := s.win.bad.filter fun w => 8 * w + 8 ≤ a || a + bs.length ≤ 8 * w } }

/-- The page has a word with an uncorrectable error. -/
def pageBad (s : State) (p : Nat) : Bool := s.win.bad.any fun w => w / 512 == p

/-- The body of a device-written page from offset 4, and its generation word larger by 2. -/
def writeBody (p : Nat) (body : List Byte) (s : State) : State := storePage p 0 (le 4 (evenGen s p + 2) ++ body) s

/-- Device-written page under R300. -/
def devWrite (p : Nat) (body : List Byte) (s : State) : State := writeBody p body (beginUpdate p s)

/-- A window write (R297): the reply code and the state. -/
def windowWrite (n p off : Nat) (bs : List Byte) (take release : Bool) (g : Nat) (s : State) : Nat × State :=
  let o := getOwn s p
  let mine := holds s n p
  let free := hostable p && o.owner == .free
  let genOk := o.gen.toNat == g
  if !take && !release then
    if mine then (0, storePage p off bs (setDirty p s)) else (6, s)
  else if mine || (take && free) then
    if !genOk then (7, s)
    else
      let s := if take && !mine then changeOwner p .host n s else s
      let s := storePage p off bs (setDirty p s)
      (0, if release then changeOwner p .free 0 s else s)
  else (6, s)

/-- Pages of the bulk transfer area. -/
def bulkPage (p : Nat) : Bool := 0x90 ≤ p && p ≤ 0xEF

/-- Pages taken by a command pass to DEVICE for the session (R296, Table 10.9). -/
def pagesToDevice (n : Nat) (ps : List Nat) (s : State) : State := forAll ps (fun p s => changeOwner p .device n s) s

/-- The end of a command returns its pages: HOST to the session, FREE when it has closed (05, R162). A page that is no
longer DEVICE is not returned again (02, R76). -/
def returnPages (n : Nat) (ps : List Nat) (s : State) : State :=
  forAll ps (fun p s =>
    if (getOwn s p).owner == .device then
      if (getOwn s p).orphan then changeOwner p .free 0 s else changeOwner p .host n s
    else s) s

/-- Fill of a page that a session holds, on the path of 12 R348: DEVICE during the fill, then HOST again. -/
def fillHeld (n p off : Nat) (bs : List Byte) (s : State) : State :=
  returnPages n [p] (storePage p off bs (pagesToDevice n [p] s))

end Sys2Proof.Machine
end

