-- ==== Sys2Proof/Machine/Flags.lean ====
section
/-! DEFINITION. The status that hosts see: FAIL_N (08, R251), the front registers' flags (10, Table 10.14), ALERT_N, the
status byte and STATUS (10, Table 10.10; 17, Table 17.12). -/

namespace Sys2Proof.Machine

open Sys2Proof

/-- FAIL_N is asserted (08, R251; 02, R50). -/
def failN (s : State) : Bool :=
  !s.power.stable || s.power.warm || decide (s.power.phase = .held)
  || (s.fns.any fun p => p.2.st ≠ 0)
  || ((present s).any fun k => !decide ((getShed s k).mode = .joined))
  || inCold s || safeOn s || shutdownOn s

/-- An IRQ flag is set (10, R308). -/
def setIrq (i : Nat) (s : State) : State :=
  { s with front := { s.front with irqFlags := s.front.irqFlags ||| BitVec.ofNat 32 (2 ^ i) } }

/-- What every command ends with: FAIL_N as it now stands, and the FAIL flag when its level has changed (Table 10.14). -/
def settle (s : State) : State :=
  if failN s = s.power.failLevel then s
  else setIrq 2 { s with power := { s.power with failLevel := failN s } }

/-- A mailbox is bound to SPIT: its session is open from there (10, R276). -/
def boundSpit (s : State) (n : Nat) : Bool := (getSess s n).isOpen && decide ((getSess s n).src = .spit)

/-- A reply or event is staged (10, R289). -/
def stagedItem (m : Mailbox) : Option Item :=
  match m.replies with
  | r :: _ => some r
  | [] => m.events.head?

/-- REPLY_PENDING: a staged item in a mailbox bound to SPIT (10, Table 10.10). -/
def replyPending (s : State) : Bool :=
  (List.range 16).any fun n => boundSpit s n && (stagedItem (getMbx s n)).isSome

/-- IRQ_FLAGS with its bit 0 (10, Table 10.14). -/
def irqNow (s : State) : Nat := s.front.irqFlags.toNat / 2 * 2 + bit01 (replyPending s)

/-- The yard is in a reset: ALERT_N is high-impedance (10, R308). -/
def yardReset (s : State) : Bool := decide (s.power.phase = .held) || s.power.warm

/-- ALERT_N is asserted (10, R308). -/
def alertN (s : State) : Bool := !yardReset s && (irqNow s &&& s.front.irqEn.toNat) ≠ 0

/-- The status byte (10, Table 10.10). -/
def statusByte (s : State) : Byte :=
  BitVec.ofNat 8 (bit01 s.power.ready * 128 + bit01 (replyPending s) * 64 + bit01 (alertN s) * 32
    + bit01 (faultSum s ≠ 0) * 16 + bit01 s.front.frameErr * 8 + bit01 s.front.winBusy * 4 + 2)

/-- Rank of a privilege (10, R281). -/
def Priv.rank : Priv → Nat
  | .observer => 0
  | .operator => 1
  | .owner => 2

def privOf : Nat → Priv
  | 0 => .observer
  | 1 => .operator
  | _ => .owner

/-- Sheds that are resetting, resynchronising or showing their fallback image (17, Table 17.12). -/
def shedsOff (s : State) : Nat :=
  sumN ((present s).map fun k =>
    if (!decide ((getShed s k).mode = .joined) && !decide ((getShed s k).mode = .safe)) || (getShed s k).resync then 2 ^ k
    else 0)

/-- Code of the mode in STATUS (17, Table 17.12). -/
def modeCode (s : State) : Nat :=
  match s.power.mode with
  | .run => 0
  | .update => 1
  | .coldWait => 2
  | .startup | .nightWatch => 3

/-- STATUS (17, Table 17.12). -/
def statusReg (s : State) : Nat :=
  modeCode s * 2 ^ 30 + (getSess s 0).priv.rank * 2 ^ 28 + bit01 (failN s) * 2 ^ 27 + bit01 s.power.ready * 2 ^ 26
    + bit01 s.power.stable * 2 ^ 25 + bit01 (safeOn s || shutdownOn s) * 2 ^ 24 + (openSessions s).length * 2 ^ 19
    + shedsOff s * 256

end Sys2Proof.Machine
end

