-- ==== Sys2Proof/Machine/SessOps.lean ====
section
/-! DEFINITION. Sessions, mailboxes, replies, host events and violations (10), with the datagrams and frames that carry
staged items to UDP and CAN sources (11, R322 to R330). -/

namespace Sys2Proof.Machine

open Sys2Proof

/-- Transport code of a source (10, Table 10.1). -/
def Source.transport : Source → Nat
  | .spit => 0
  | .udp p _ _ => p.val + 1
  | .can c _ => c.val + 3

/-- A frame or datagram leaves the device, unless a power-fail has stopped transmission (02, R81). -/
def emit (o : NetOut) (s : State) : State :=
  if s.power.fail.isSome then s else { s with net := { s.net with out := o :: s.net.out } }

/-! Ports of the switch, and what the device itself sends by them. -/

/-- The network island runs (11, R315; 02, Table 2.3). -/
def netRuns (s : State) : Bool := !decide (s.power.phase = .held)

/-- The 100BASE-T1 port passes frames (11, R312). -/
def t1On (s : State) : Bool := netRuns s && s.net.link && yf s R.netCfg 31 31 == 1

/-- The 10BASE-T1S port runs (11, R313). -/
def t1sOn (s : State) : Bool := netRuns s && yf s R.netCfg 29 29 == 1

def pvid (s : State) (p : Nat) : Nat := yf s (R.swPort + p) 31 20

/-- Port `p` is a member of VLAN `vid`. -/
def inVlan (s : State) (p vid : Nat) : Bool :=
  (List.range 16).any fun i =>
    yf s (R.swVlan + i) 16 16 == 1 && yf s (R.swVlan + i) 31 20 == vid && (yf s (R.swVlan + i) 19 17).testBit p

/-- Port `p` sends frames of VLAN `vid` untagged (11, R316, step 4). -/
def untags (s : State) (p vid : Nat) : Bool := vid == pvid s p && yf s (R.swPort + p) 8 8 == 1

/-- What waits for the coordinator's own opportunity on port 1 (11, R313). -/
def queueOut (high : Bool) (o : NetOut) (s : State) : State :=
  { s with net := { s.net with egress := Table.upd [] s.net.egress 1 (· ++ [(high, o)]) } }

/-- A message of the firmware leaves by port `p`, on the VLAN of CPU traffic and at low priority (11, R312, R313, R316, R318; log entry
209). -/
def sendOwn (p : Nat) (m : OwnMsg) (s : State) : State :=
  let vid := yf s R.ipMisc 25 14
  let o := NetOut.own p (if untags s p vid then none else some vid) m
  if s.power.fail.isSome || !inVlan s 2 vid || !inVlan s p vid then s
  else if p = 0 then if t1On s then emit o s else s
  else if t1sOn s then queueOut false o s
  else s

/-- The gratuitous ARP of a link-up, by the firmware (11, R320, Table 11.2). -/
def announce (s : State) : State := sendOwn 0 (.gratuitousArp (reg s yardDie R.ipAddr)) { s with net := { s.net with arpDue := false } }

/-- A CAN frame leaves; an FD frame switches its bit rate where FD_EN is 1 (11, R327). -/
def emitCan (c id : Nat) (ide fdf : Bool) (data : List Byte) (s : State) : State :=
  emit (.can c id ide fdf (fdf && yf s (R.canCfg + 8 * c) 30 30 == 1) data) s

/-- An IPv4 address lies in the device's prefix (11, R320). -/
def inPrefix (s : State) (ip : Word) : Bool :=
  let k := 32 - yf s R.ipMisc 31 26
  (ip.toNat >>> k) == ((reg s yardDie R.ipAddr).toNat >>> k)

/-- A UDP datagram of the device; one that needs an absent gateway is dropped (11, R320). -/
def sendUdp (port : Nat) (ip : Word) (sport dport : BitVec 16) (body : List Byte) (s : State) : State :=
  if inPrefix s ip || (reg s yardDie R.ipGw) ≠ 0 then sendOwn port (.udp ip sport dport body) s else s

/-- The reply slot that holds an item (10, Table 10.3): header and payload. -/
def itemSlot (x : Item) : List Byte :=
  le 2 x.opcode ++ le 2 x.tag ++ le 2 x.payload.length ++ le 2 (x.code * 256 + x.detail) ++ x.payload

/-- The reply slot of a mailbox, 64 bytes. -/
def replySlot (m : Mailbox) : List Byte :=
  match stagedItem m with
  | some x => padTo 64 (itemSlot x)
  | none => zeros 64

/-- Next FD data length at or above `n` (11, R330). -/
def fdLen (n : Nat) : Nat :=
  if n ≤ 8 then n else if n ≤ 12 then 12 else if n ≤ 16 then 16 else if n ≤ 20 then 20 else if n ≤ 24 then 24
  else if n ≤ 32 then 32 else if n ≤ 48 then 48 else 64

def jhpPort (s : State) : BitVec 16 := BitVec.ofNat 16 (yf s R.udpPorts 31 16)
def winPort (s : State) : BitVec 16 := BitVec.ofNat 16 (yf s R.udpPorts 15 0)

/-- Header of a JHP datagram of the device (11, Table 11.6). -/
def jhpHead (type mbx : Nat) : List Byte := le 2 0x4A48 ++ le 1 type ++ le 1 mbx ++ zeros 4

/-- First JHP identifier of a controller and its format (11, R329). -/
def canBase (s : State) (c : Nat) : Nat := yf s (R.canJhp + 8 * c) 28 0
def canIde (s : State) (c : Nat) : Bool := yf s (R.canJhp + 8 * c) 30 30 == 1

/-- A controller can transmit: enabled, not bus-off. -/
def canOn (s : State) (c : Nat) : Bool := yf s (R.canCfg + 8 * c) 31 31 == 1 && (getCan s c).bus ≠ 2

/-- An item on its way to a source that is not SPIT (11, R324, R330). -/
def sendTo (src : Source) (mbx : Nat) (slot : List Byte) (s : State) : State :=
  match src with
  | .spit => s
  | .udp p ip sp => sendUdp p ip (jhpPort s) sp (jhpHead 0x81 mbx ++ slot) s
  | .can c k =>
    if canOn s c then emitCan c (canBase s c + 4 * k + 1) (canIde s c) true (padTo (fdLen slot.length) slot) s else s

/-- The staged item of a mailbox is sent to its source and its resend time starts. -/
def transmit (n : Nat) (s : State) : State :=
  match stagedItem (getMbx s n) with
  | none => s
  | some x =>
    let mark := fun (l : List Item) => match l with | y :: r => { y with sentAt := s.now } :: r | [] => []
    let m := getMbx s n
    let m' := if m.replies.isEmpty then { m with events := mark m.events } else { m with replies := mark m.replies }
    if (getSess s n).src = .spit then s else sendTo (getSess s n).src n (itemSlot x) (setMbx n m' s)

/-- An event takes the LOST count as it is staged (10, R290, Table 10.5). -/
def stampLost (lost : Nat) (e : Item) : Item := { e with staged := true, payload := e.payload.take 2 ++ le 2 lost ++ e.payload.drop 4 }

/-- The head of the mailbox is staged: an item of a UDP or CAN session is sent, and an event carries the LOST count, which returns to 0 (10,
R289, R290). Done after each change of the mailbox. -/
def restage (n : Nat) (s : State) : State :=
  let m := getMbx s n
  match m.replies, m.events with
  | r :: rs, _ =>
    if r.staged then s else transmit n (setMbx n { m with replies := { r with staged := true } :: rs } s)
  | [], e :: es =>
    if e.staged then s else transmit n (setMbx n { m with events := stampLost m.lost e :: es, lost := 0 } s)
  | [], [] => s

/-- A reply: its entry ends and the item joins the mailbox; a POSTED command that ends OK frees its entry with no reply
(10, R286, R289). An entry that the mailbox no longer holds answers nothing (10, R279). -/
def pushReply (n id code detail : Nat) (payload : List Byte) (s : State) : State :=
  let m := getMbx s n
  match m.queue.find? (fun e => e.id == id && e.st ≠ .ended) with
  | none => s
  | some e =>
    if e.flags % 2 == 1 && code == 0 then setMbx n { m with queue := m.queue.filter (·.id ≠ id) } s
    else
      let x : Item := { entry := id, opcode := e.opcode, tag := e.tag, code := code, detail := detail,
                        payload := payload, staged := false, sentAt := 0 }
      restage n (setMbx n { m with queue := m.queue.map (fun y => if y.id = id then { y with st := .ended } else y),
                                   replies := m.replies ++ [x] } s)

/-- A host event to one session: a queue of eight, LOST beyond it (10, R290). -/
def pushEvent (n cls p1 p2 : Nat) (s : State) : State :=
  let m := getMbx s n
  if m.events.length ≥ 8 then setMbx n { m with lost := min 65535 (m.lost + 1) } s
  else
    let x : Item := { entry := 0, opcode := 0x01FF, tag := m.evSeq, code := 0, detail := 0,
                      payload := le 2 cls ++ zeros 2 ++ le 4 s.marks.count.toNat ++ le 4 p1 ++ le 4 p2,
                      staged := false, sentAt := 0 }
    restage n (setMbx n { m with events := m.events ++ [x], evSeq := (m.evSeq + 1) % 65536 } s)

/-- IRQ flag of an event class (10, Table 10.14). -/
def irqOf : Nat → Option Nat
  | 0 => some 4
  | 1 => some 5
  | 2 => some 3
  | 3 => some 1
  | _ => none

/-- A host event to every session whose mask names its class; the IRQ flag is set whatever the masks (10, R290, R308). -/
def hostEvent (cls p1 p2 : Nat) (s : State) : State :=
  let s := match irqOf cls with | some i => setIrq i s | none => s
  forAll ((openSessions s).filter fun n => (getSess s n).events.toNat.testBit cls) (fun n s => pushEvent n cls p1 p2 s) s

/-- FN_LOST to the former holder of a function (10, R292, Table 10.14). -/
def fnLost (n f taker : Nat) (s : State) : State :=
  let s := if decide ((getSess s n).src = .spit) then setIrq 6 s else s
  if (getSess s n).events.toNat.testBit 4 then pushEvent n 4 f taker s else s

/-- The map holder's requests, with FN_LOST to the sessions that lose a function (11, R332). -/
def mapTake (s : State) : State :=
  let r := mapRequest s
  forAll r.2 (fun p s => fnLost p.1 p.2 0xFE s) r.1

/-- Open privilege that SESS_PRIV gives a transport (10, Table 10.18). -/
def openPriv (s : State) (t : Nat) : Priv := privOf (yf s R.sessPriv (2 * t + 1) (2 * t))

/-- The registers that a session takes at its opening, its reset and each renewal: VIOL_MAX, VIOL_WIN, and LEASE for a default lease (10,
R278, R310). -/
def takeCfg (s : State) (x : Session) : Session :=
  { x with violMax := yf s R.sessCfg 31 24, violWin := yf s R.sessCfg 23 16, lease := if x.leaseDefault then yf s R.sessCfg 15 0 else x.lease }

/-- Session 0 as it is restored (10, R280). The cursor is kept (14). -/
def sessionZero (s : State) : Session :=
  takeCfg s { Session.init with isOpen := true, src := .spit, leaseDefault := true, last := s.now, priv := openPriv s 0,
                                events := BitVec.ofNat 16 (yf s R.sessPriv 31 16), cursor := (getSess s 0).cursor }

/-- The end of an install (16, R444): abandoned, the slot reads INCOMPLETE, the device leaves Update. -/
def abandonInstall (s : State) : State :=
  match s.store.install with
  | none => s
  | some i =>
    let step := if i.finish then 3 else if i.blocks.isEmpty then 1 else 2
    let void := fun (f : FwSlot) => { f with installed := none }
    let st : Store := { s.store with install := none }
    let st := if st.active = 0 then { st with slotB := void st.slotB } else { st with slotA := void st.slotA }
    let s := { s with store := st, power := { s.power with mode := if s.power.mode = .update then .run else s.power.mode } }
    hostEvent 5 0 1 (log 0x0A03 1 i.version step s)

/-! The effects of a close, in order (10, R279). -/

/-- Queued and executing commands send no reply; replies, events and the challenge go. -/
def endMail (n : Nat) (s : State) : State :=
  setSess n { getSess s n with nonce := none, keyNonce := none, priv := .observer, isOpen := false }
    (setMbx n { getMbx s n with queue := [], bell := false, replies := [], events := [], lost := 0 } s)

/-- The functions that the session drove. -/
def endFns (n : Nat) (s : State) : State := forAll (drivenBy s n) releaseFn s

/-- Its pages: HOST ones are FREE, DEVICE ones will be. -/
def endPages (n : Nat) (s : State) : State :=
  let s := forAll ((s.win.own.filter fun p => p.2.session == n && p.2.owner == .host).map (·.1))
    (fun p s => changeOwner p .free 0 s) s
  forAll ((s.win.own.filter fun p => p.2.session == n && p.2.owner == .device).map (·.1))
    (fun p s => setOwn p { getOwn s p with orphan := true } s) s

/-- Its install (16, R444). -/
def endInstall (n : Nat) (s : State) : State :=
  match s.store.install with
  | some i => if i.sess = n then abandonInstall s else s
  | none => s

/-- A held SPI frame of the session ends (12, R345); a running transfer runs on and holds no frame. -/
def endFrames (n : Nat) (s : State) : State :=
  { s with spim := s.spim.filterMap fun p =>
    let y := p.2
    let y := { y with xfer := y.xfer.map fun (x : Xfer) => if x.sess = n then { x with hold := false } else x }
    let y := match y.frame with
      | some (h, _, _) => if h = n then { y with frame := none, lastEnd := s.now } else y
      | none => y
    if y = Spim.init then none else some (p.1, y) }

/-- The record and the flag of a close; at a warm reset the record is a shadow summary (15, Table 15.6). -/
def endRecord (n reason inc : Nat) (x : Session) (s : State) : State :=
  let s := if reason = 3 then s else logX 0x0102 0 0 n reason x.viols.length inc s
  if decide (x.src = .spit) then setIrq 6 s else s

/-- The close of session `n` (10, R279), or the reset of session 0 (R280). Reason: 0 CLOSE, 1 LEASE, 2 VIOLATIONS,
3 WARM_RESET. -/
def closeSession (n reason inc : Nat) (s : State) : State :=
  let x := getSess s n
  if !x.isOpen then s
  else
    let s := endRecord n reason inc x (endFrames n (endInstall n (endPages n (endFns n (endMail n s)))))
    if n = 0 then setSess 0 (sessionZero s) s else setSess n Session.init s

/-- The lease of a session in nanoseconds (10, R278). -/
def leaseNs (x : Session) : Nat := x.lease * 10 * ms

/-- Lease time remaining, in ms. -/
def leaseLeft (s : State) (n : Nat) : Nat :=
  let x := getSess s n
  (x.last + leaseNs x - s.now) / ms

/-- The lease of a session restarts (10, R278, R310). -/
def renew (n : Nat) (s : State) : State :=
  updSess n (fun x => if x.isOpen then takeCfg s { x with last := s.now } else x) s

/-- Every session bound to SPIT is renewed (10, R278). -/
def renewSpit (s : State) : State := forAll ((List.range 16).filter (boundSpit s)) renew s

/-- A protocol violation by session `n` (10, R291): logged, counted, and the session closed at the limit. -/
def violation (n p1 p2 : Nat) (s : State) : State :=
  let s := logX 0x0105 1 0 n p1 p2 0 s
  let s := updSess n (fun x => { x with viols := (x.viols.filter fun t => s.now < t + x.violWin * sec) ++ [s.now] }) s
  if (getSess s n).viols.length ≥ (getSess s n).violMax then closeSession n 2 0 s else s

/-- Violations of a session in the trailing window. -/
def violCount (s : State) (n : Nat) : Nat :=
  let x := getSess s n
  (x.viols.filter fun t => s.now < t + x.violWin * sec).length

/-- Reply codes that are violations (10, Table 10.6). -/
def isViolation (code : Nat) : Bool := [1, 2, 3, 4, 5, 6, 9].contains code

/-- A reply with its violation, if its code is one (10, R291). -/
def answer (n id opcode code detail : Nat) (payload : List Byte) (s : State) : State :=
  let s := pushReply n id code detail payload s
  if isViolation code then violation n code opcode s else s

/-- A command slot's entry (10, Table 10.3). -/
def slotEntry (m : Mailbox) (id : Nat) : Entry :=
  let b := Table.range 0 m.slot 0 64
  { id := id, opcode := u16 b 0, tag := u16 b 2, len := u16 b 4, flags := u16 b 6, payload := b.drop 8, st := .waiting }

/-- Copy of the command slot into a free entry (10, R286). -/
def copySlot (n : Nat) (s : State) : State :=
  let m := getMbx s n
  { setMbx n { m with queue := m.queue ++ [slotEntry m s.nextEntry], bell := false } s with nextEntry := s.nextEntry + 1 }

/-- Opcodes of Tables 17.1 to 17.5 (17, R453). -/
def knownOpcode (o : Nat) : Bool :=
  [0x0101, 0x0102, 0x0103, 0x0104, 0x0105, 0x0106, 0x0107, 0x0108, 0x0110, 0x0111, 0x0112, 0x0113, 0x0201, 0x0202,
   0x0203, 0x0204, 0x0210, 0x0211, 0x0301, 0x0302, 0x0303, 0x0304, 0x0305, 0x0306, 0x0401, 0x0410, 0x0411, 0x0412,
   0x0413, 0x0414, 0x0501, 0x0502, 0x0601, 0x0602, 0x0603, 0x0604, 0x0605, 0x0606, 0x0610, 0x0620].contains o
  || [0x0701, 0x0702, 0x0703, 0x0704, 0x0705, 0x0706, 0x0707, 0x0708, 0x0709, 0x0801, 0x0802, 0x0803, 0x0804, 0x0805,
   0x0810, 0x0811, 0x0901, 0x0902, 0x0A01, 0x0A02, 0x0A03, 0x0A04, 0x0A05, 0x0A06, 0x0A07, 0x0A10, 0x0A11, 0x0A12,
   0x0A20, 0x0A21, 0x0A22, 0x0A23, 0x0A30, 0x0A31, 0x0A32, 0x0B01, 0x0B02, 0x0B03, 0x0B04].contains o

/-- The first entry that has not begun. -/
def headEntry (s : State) (n : Nat) : Option Entry := (getMbx s n).queue.find? fun e => e.st == .waiting

/-- Lapses of a controller warm reset wait for their round, which starts before a session other than session 0 opens (02, R76). A SAFE
fault holds that round back (15, R412), not the sessions. -/
def opensHeld (s : State) : Bool := s.scene.lapsesFirst.any (fun f => s.scene.heldLapses.contains f) && !safeOn s

/-- A command that waits for the yard itself: SESSION_OPEN for a lapse round, LOG_CLEAR and FW_ACTIVATE for their MRAM write (02, R76, R86;
09, R271). -/
def entryHeld (s : State) (e : Entry) : Bool :=
  (e.opcode == 0x0101 && opensHeld s) || (e.opcode == 0x0604 && s.power.fail.isSome)
  || (e.opcode == 0x0A06 && (s.power.fail.isSome || s.power.hotTrip))

/-- A command of mailbox `n` waits for its turn. -/
def waitsTurn (s : State) (n : Nat) : Bool :=
  (getSess s n).isOpen && match headEntry s n with | some e => !entryHeld s e | none => false

/-- Mailbox `n` may begin a command: it has begun none in this turn, or every other mailbox with a command has (10, R288; log
entry 208). -/
def mayBegin (s : State) (n : Nat) : Bool :=
  !s.turn.contains n || (List.range 16).all fun m => m == n || s.turn.contains m || !waitsTurn s m

/-- Mailbox `n` begins a command, in this turn or as the first of the next. -/
def takeTurn (n : Nat) (s : State) : State := { s with turn := if s.turn.contains n then [n] else s.turn ++ [n] }

/-- Mailbox whose turn it may be and whose oldest command has an unknown opcode. -/
def unknownNext (s : State) : Option (Nat × Entry) :=
  (List.range 16).findSome? fun n =>
    if (getSess s n).isOpen && mayBegin s n then ((headEntry s n).filter fun e => !knownOpcode e.opcode).map fun e => (n, e) else none

/-- Entries with an unknown opcode are answered in their turn (10, R288, R291 step 1). -/
def answerUnknown (fuel : Nat) (s : State) : State :=
  match fuel with
  | 0 => s
  | f + 1 =>
    match unknownNext s with
    | some (n, e) => answerUnknown f (answer n e.id e.opcode 1 0 [] (takeTurn n s))
    | none => s

/-- A doorbell (10, R286): the slot is copied, or the doorbell stays pending. Only an open session's mailbox serves. -/
def ringDoorbell (n : Nat) (s : State) : State :=
  if !(getSess s n).isOpen then s
  else
    let m := getMbx s n
    if m.queue.length < 4 then answerUnknown 64 (copySlot n s)
    else setMbx n { m with bell := true } s

/-- The acknowledgement of the staged item: its entry frees and the next item is staged (10, R286, R289). -/
def acknowledge (n : Nat) (s : State) : State :=
  let m := getMbx s n
  match m.replies with
  | r :: rs => restage n (setMbx n { m with replies := rs, queue := m.queue.filter (·.id ≠ r.entry) } s)
  | [] => restage n (setMbx n { m with events := m.events.drop 1 } s)

/-- What a command's own part answers: nothing yet, or a reply. -/
inductive Rep where
  | later
  | now (code detail : Nat) (payload : List Byte)
  deriving DecidableEq, Repr

def rOk (p : List Byte) : Rep := .now 0 0 p
def rErr (c : Nat) : Rep := .now c 0 []
def rErrD (c d : Nat) : Rep := .now c d []

/-- The general checks of a JHP command (10, R291 steps 2 to 4): its length, its reserved bytes, its least privilege. -/
def generalCheck (s : State) (n : Nat) (e : Entry) (len : Nat) (rsvd : List Byte → Bool) (priv : Nat) : Option Nat :=
  if e.len > 56 || e.len ≠ len then some 2
  else if e.flags / 2 ≠ 0 || !rsvd e.payload then some 3
  else if (getSess s n).priv.rank < priv then some 5
  else none

/-- What a refusal at the general checks carries: nothing, but for FN_CLEAR, which carries its payload with every code (17, R452). -/
def refusalPayload (opcode : Nat) (p : List Byte) : List Byte :=
  if opcode = 0x0401 then le 1 (u8 p 0) ++ le 3 0xFFFF00 ++ le 4 0 else []

/-- The oldest entry of MBX_n begins in its turn, when its opcode is the command's (log entry 3): general checks, then the
command's own part, then the reply. -/
def runJhp (n opcode : Nat) (len : List Byte → Nat) (rsvd : List Byte → Bool) (priv : Nat)
    (body : Entry → State → Rep × State) (s : State) : State :=
  match headEntry s n with
  | none => s
  | some e =>
    if !s.power.ready || !(getSess s n).isOpen || e.opcode ≠ opcode || !mayBegin s n || entryHeld s e then s
    else
      let s := takeTurn n (setMbx n { getMbx s n with
        queue := (getMbx s n).queue.map fun y => if y.id = e.id then { y with st := .begun } else y } s)
      let s := match generalCheck s n e (len e.payload) rsvd priv with
        | some c => answer n e.id opcode c 0 (refusalPayload opcode e.payload) s
        | none =>
          match body e s with
          | (.later, s) => s
          | (.now c d p, s) => answer n e.id opcode c d p s
      answerUnknown 64 s

/-- Bytes `i` to `i + c - 1` of a payload are zero. -/
def zeroAt (i c : Nat) (p : List Byte) : Bool := (slice p i c).all (· == 0)

/-- No reserved byte in the payload. -/
def noRsvd (_ : List Byte) : Bool := true

/-- A fixed payload length. -/
def fixed (k : Nat) (_ : List Byte) : Nat := k

end Sys2Proof.Machine
end

