-- ==== Sys2Proof/Machine/LinkOps.lean ====
section
/-! DEFINITION. Die links (01, R33 to R38): what an end sends, in class order and at most eight packets outstanding, and what
an acknowledgement releases. -/

namespace Sys2Proof.Machine

open Sys2Proof

/-- Class of a packet: 2 urgent, 1 status, 0 bulk (01, Table 1.5). -/
def Packet.cls : Packet → Nat
  | .prepare _ | .prepareOk _ | .prepareFail _ | .event _ | .command _ => 2
  | .readReq _ | .readData _ _ | .frameStatus _ => 1
  | .write _ _ | .writeEngines _ | .writeCapture _ => 0

/-- First waiting packet of class `c`, with the rest (01, R34). -/
def takeClass (c : Nat) : List Packet → Option (Packet × List Packet)
  | [] => none
  | p :: r => if p.cls = c then some (p, r) else (takeClass c r).map fun q => (q.1, p :: q.2)

/-- The next packet to send: the highest class first. -/
def nextPacket (l : List Packet) : Option (Packet × List Packet) :=
  (takeClass 2 l).orElse fun _ => (takeClass 1 l).orElse fun _ => takeClass 0 l

/-! Words on the lane (01, Tables 1.4 and 1.5). -/

/-- Time of one 72-bit word on the lane (Table 1.6). -/
def wordTime : Nat := 360

/-- TYPE of a packet (Table 1.5). -/
def Packet.type : Packet → Nat
  | .write _ _ | .writeEngines _ | .writeCapture _ => 0x01
  | .readReq _ => 0x02
  | .readData _ _ => 0x03
  | .prepare _ => 0x10
  | .prepareOk _ => 0x11
  | .prepareFail _ => 0x12
  | .frameStatus _ => 0x20
  | .event _ => 0x21
  | .command _ => 0x30

/-- Command codes (05, R158, R159; 06, R192; 07, R223; 08, R248; 09, R258, R265; 15, R412, R432). -/
def Cmd.code : Cmd → Nat
  | .commit _ _ => 0x0100
  | .abort => 0x0101
  | .patCtl _ => 0x0110
  | .derate _ _ => 0x0120
  | .failOff _ => 0x0130
  | .govern _ _ _ => 0x0140
  | .round _ => 0x0150
  | .fallback => 0x0160
  | .inject _ _ _ => 0x0170

/-- Kind of an EVENT; its code is not given (log entry 185). -/
def ShedEvent.kind : ShedEvent → Nat
  | .verdict _ _ _ _ _ => 0
  | .switchVerdict _ _ _ => 1
  | .boosterVerdict _ _ _ => 2
  | .starved _ => 3
  | .mode _ _ _ => 4
  | .rowScaled _ _ => 5
  | .rowRegOver _ _ => 6
  | .exclHeld _ _ => 7
  | .lampHot _ _ => 8
  | .ntc _ _ => 9
  | .fault _ => 10
  | .patLate _ _ => 11
  | .checkpoints _ _ => 12
  | .captured _ => 13

/-- Addresses under which engines and a capture are written (log entry 6). -/
def A.engines : Nat := 0x3D100
def A.capture : Nat := 0x3D800

/-- ARG of a packet (Table 1.5). -/
def Packet.arg : Packet → Nat
  | .write a _ | .readReq a | .readData a _ => a
  | .writeEngines _ => A.engines
  | .writeCapture _ => A.capture
  | .prepare i | .prepareOk i | .prepareFail i => i
  | .frameStatus f => f.frame.toNat
  | .event e => (Config.eventCode e.kind).toNat
  | .command c => c.code

/-- LEN of a packet: 32 words for FRAME_STATUS and a restore of engines, 1 for a capture, whose lengths are not given (log entry 185). -/
def Packet.len : Packet → Nat
  | .write _ ws | .readData _ ws => ws.length
  | .readReq _ | .prepare _ | .prepareOk _ | .prepareFail _ => 0
  | .frameStatus _ | .writeEngines _ => 32
  | .event _ | .command _ | .writeCapture _ => 1

/-- Words of a packet on the lane. -/
def Packet.words (p : Packet) : Nat := 1 + p.len

/-- Header word of a packet (Table 1.4). -/
def Packet.head (p : Packet) (seq ack : Nat) : DWord :=
  BitVec.ofNat 64 (p.type * 2 ^ 56 + seq * 2 ^ 48 + ack * 2 ^ 40 + p.len * 2 ^ 34 + p.cls * 2 ^ 32 + p.arg % 2 ^ 32)

/-- Header-format word of a control word (Tables 1.4 and 1.5): the ACK field of every one but MARK carries `ack`. -/
def Ctl.head (c : Ctl) (ack : Nat) : DWord :=
  BitVec.ofNat 64 (3 * 2 ^ 32 + match c with
    | .mark f n => 0xF1 * 2 ^ 56 + f % 65536 * 2 ^ 40 + n.toNat
    | .ack u => 0xF2 * 2 ^ 56 + u % 256 * 2 ^ 40
    | .nak e => 0xF3 * 2 ^ 56 + ack * 2 ^ 40 + e % 256
    | .heartbeat n => 0xF4 * 2 ^ 56 + ack * 2 ^ 40 + n.toNat)

/-- ACK field of a header word (Table 1.4). -/
def headAck (w : DWord) : Nat := dfld w 47 40

/-- Highest sequence number that an end has received in order. -/
def LinkEnd.ackOf (e : LinkEnd) : Nat := (e.rxSeq + 255) % 256

/-- The packet on the lane at an instant. -/
def onLane (now : Nat) (l : List OutPkt) : Option OutPkt := l.find? fun o => o.startAt ≤ now && now < o.sentAt

/-- A packet handed to the lane that has not begun: it gives way to a word of a higher class (R34). -/
def OutPkt.unbegun (now : Nat) (o : OutPkt) : Bool := now < o.startAt && !o.again

/-- Packets that have not begun wait again. -/
def reclaim (now : Nat) (e : LinkEnd) : LinkEnd :=
  match e.out.filter (OutPkt.unbegun now) with
  | [] => e
  | o :: r => { e with
      waiting := (o :: r).map (·.pkt) ++ e.waiting, out := e.out.filter fun x => !x.unbegun now, txSeq := o.seq, busy := o.startAt }

/-- Waiting packets take their turns on the lane while fewer than eight are unacknowledged (01, R34, R35). -/
def pump (now fuel : Nat) (e : LinkEnd) : LinkEnd :=
  match fuel with
  | 0 => e
  | f + 1 =>
    if e.out.length ≥ 8 then e
    else
      match nextPacket e.waiting with
      | none => e
      | some (p, r) =>
        let a := max now e.busy
        let b := a + wordTime * p.words
        pump now f { e with
          waiting := r
          out := e.out ++ [{ seq := e.txSeq, pkt := p, head := p.head e.txSeq e.ackOf, startAt := a, sentAt := b, again := false, retries := 0 }]
          txSeq := (e.txSeq + 1) % 256, busy := b, lastTx := b }

/-- An end takes a packet to send. -/
def LinkEnd.send (now : Nat) (p : Packet) (e : LinkEnd) : LinkEnd :=
  let e := reclaim now e
  pump now 8 { e with waiting := e.waiting ++ [p] }

/-- Control words that were held go out once their packet has ended (R34). -/
def freeHeld (now : Nat) (e : LinkEnd) : LinkEnd :=
  if (onLane now e.out).map (·.seq) = e.ctlSeq then e
  else { e with ctl := (e.ctlHeld.map fun c => (c, c.head e.ackOf)).reverse ++ e.ctl, ctlHeld := [], ctlSeq := none, ctlN := 0 }

/-- What is still on the lane ends one word later. -/
def delayWord (now : Nat) (o : OutPkt) : OutPkt :=
  if now < o.sentAt then { o with startAt := if now < o.startAt then o.startAt + wordTime else o.startAt, sentAt := o.sentAt + wordTime } else o

def Ctl.isMark : Ctl → Bool
  | .mark _ _ => true
  | _ => false

/-- An end sends a control word: between packets, or between the words of one, where six beside the MARK words find room (R34). -/
def LinkEnd.sendCtl (now : Nat) (c : Ctl) (e : LinkEnd) : LinkEnd :=
  let e := freeHeld now e
  let put := { e with ctl := (c, c.head e.ackOf) :: e.ctl, lastTx := max e.lastTx now }
  match onLane now e.out with
  | none => { put with out := e.out.map (delayWord now), busy := max now e.busy + wordTime }
  | some o =>
    if !c.isMark && e.ctlN ≥ 6 then { e with ctlHeld := e.ctlHeld ++ [c] }
    else { put with
      out := e.out.map (delayWord now), busy := e.busy + wordTime, ctlSeq := some o.seq, ctlN := if c.isMark then e.ctlN else e.ctlN + 1 }

def getEnd (s : State) (k : Nat) (atYard : Bool) : LinkEnd := if atYard then (getLink s k).yard else (getLink s k).shed

def setEnd (k : Nat) (atYard : Bool) (e : LinkEnd) (s : State) : State :=
  updLink k (fun l => if atYard then { l with yard := e } else { l with shed := e }) s

/-- An end sends a packet. While its link is not trained nothing is sent. -/
def sendPkt (k : Nat) (atYard : Bool) (p : Packet) (s : State) : State :=
  if !(getLink s k).trained then s
  else
    setEnd k atYard ((getEnd s k atYard).send s.now p) s

/-- The yard sends to shed `k`. -/
def toShed (k : Nat) (p : Packet) (s : State) : State := sendPkt k true p s

/-- Shed `k` sends to the yard. -/
def toYard (k : Nat) (p : Packet) (s : State) : State := sendPkt k false p s

/-- A COMMAND word to shed `k` (01, Table 1.5). -/
def command (k : Nat) (c : Cmd) (s : State) : State := toShed k (.command c) s

/-- A COMMAND word to every present shed. -/
def commandAll (c : Cmd) (s : State) : State := forAll (present s) (fun k s => command k c s) s

/-- An end puts a control word on the lane (01, R34). -/
def sendCtl (k : Nat) (atYard : Bool) (c : Ctl) (s : State) : State :=
  setEnd k atYard ((getEnd s k atYard).sendCtl s.now c) s

/-- `a` lies within the last 128 numbers before `b`, modulo 256. -/
def seqPast (a b : Nat) : Bool := let d := (b + 256 - a % 256) % 256; 1 ≤ d && d ≤ 128

/-- Outstanding packets up to `u` are released, and waiting ones follow (01, R35). -/
def release (now u : Nat) (e : LinkEnd) : LinkEnd :=
  let e := reclaim now e
  pump now 8 { e with out := e.out.filter fun p => !(p.seq == u || seqPast p.seq u) }

/-- A WRITE to shed `k` is not acknowledged yet. -/
def writesPending (s : State) (k : Nat) : Bool :=
  let isW := fun (p : Packet) => match p with | .write _ _ | .writeEngines _ | .writeCapture _ => true | _ => false
  let e := (getLink s k).yard
  e.waiting.any isW || e.out.any fun o => isW o.pkt

/-- A retry of an end's own packets is pending: one has been made, or has fallen due 2 µs after the last word (01, R36, R37). -/
def retryPending (s : State) (k : Nat) (atYard : Bool) : Bool :=
  (getEnd s k atYard).out.any fun o => o.retries > 0 || o.sentAt + 2 * us ≤ s.now

/-- Words in runs of consecutive addresses, at most 32 words a run: the WRITE packets of R156. -/
def runs : List (Nat × DWord) → List (Nat × List DWord)
  | [] => []
  | (a, w) :: r =>
    match runs r with
    | (b, ws) :: t => if b = a + 1 && ws.length < 32 then (a, w :: ws) :: t else (a, [w]) :: (b, ws) :: t
    | [] => [(a, [w])]

/-- WRITE packets with the given words to shed `k`. -/
def writeWords (k : Nat) (ws : List (Nat × DWord)) (s : State) : State :=
  forAll (runs ws) (fun r s => toShed k (.write r.1 r.2) s) s

end Sys2Proof.Machine
end

