-- ==== Sys2Proof/Machine/FaultCore.lean ====
section
/-! DEFINITION. Reset shadows (15, R424, R425) and how a shed reports: its EVENT packets, held while its link is down. -/

namespace Sys2Proof.Machine

open Sys2Proof

/-- The shadow of a block, if it is in one. -/
def shadowOf (s : State) (b : ShadowBlock) : Option Shadow := s.faults.shadows.find? fun x => x.block == b

/-- Shed `k` is in a reset shadow. -/
def shedShadow (s : State) (k : Nat) : Bool := s.faults.shadows.any fun x => match x.block with | .shed j => j.val == k | _ => false

/-- The yard cores are in a reset shadow. -/
def yardShadow (s : State) : Bool := (shadowOf s .yard).isSome

/-- One more trip of a kind: kinds are told apart by their record code and by P2 for SHADOW_TRIPS, P1 for FAULT_RAISED. -/
def countTrip (t : Trip) (l : List Trip) : List Trip :=
  let kin := fun (x : Trip) =>
    x.code == t.code && (if t.code = 0x0B07 then x.p2 == t.p2 else if t.code = 0x0B01 then x.p1 == t.p1 else true)
  if l.any kin then l.map (fun x => if kin x then { x with n := min 65535 (x.n + t.n) } else x) else l ++ [t]

/-- A listed detector or observation trips in the shadow of a block (R425). -/
def addTrip (isBlock : ShadowBlock → Bool) (t : Trip) (s : State) : State :=
  let one := fun (x : Shadow) => if isBlock x.block then { x with trips := countTrip t x.trips } else x
  { s with faults := { s.faults with shadows := s.faults.shadows.map one } }

/-- The block is shed `k`. -/
def isShed (k : Nat) (b : ShadowBlock) : Bool := match b with | .shed j => j.val == k | _ => false

/-- A shadowed block resumes: its shadow ends 5 ms from now (R424). -/
def resumeShadow (isBlock : ShadowBlock → Bool) (s : State) : State :=
  let one := fun (x : Shadow) => if isBlock x.block then { x with resumed := some s.now } else x
  { s with faults := { s.faults with shadows := s.faults.shadows.map one } }

/-- A shadow covers a block from now on (R424); a block that is in one stays in it, under its first incident. -/
def startShadow (b : ShadowBlock) (inc : Nat) (s : State) : State :=
  let l := s.faults.shadows
  let l := if l.any (fun x => x.block == b) then l.map (fun x => if x.block == b then { x with resumed := none } else x)
    else l ++ [{ block := b, resumed := none, inc := inc, trips := [] }]
  { s with faults := { s.faults with shadows := l } }

/-- The shadow block of shed `k`. -/
def shedBlock (k : Nat) : ShadowBlock := .shed (Fin.ofNat 7 k)

/-- An observation of a kind of Table 15.13 in the shadow of shed `k`. -/
def shedTrip (k kind first : Nat) (s : State) : State :=
  addTrip (isShed k) { code := 0x0B07, p1 := first, p2 := kind, die := k + 1, n := 1 } s

/-- An observation of a kind of Table 15.13 in the shadow of the yard cores. -/
def yardTrip (kind first : Nat) (s : State) : State :=
  addTrip (fun b => decide (b = .yard)) { code := 0x0B07, p1 := first, p2 := kind, die := 0, n := 1 } s

/-- Shed `k` reports: an EVENT, held until the rejoin while the link is down (08, R249; 15, R422). -/
def shedEvent (k : Nat) (e : ShedEvent) (s : State) : State :=
  if (getLink s k).trained then toYard k (.event e) s
  else updShed k (fun d => { d with held_events := d.held_events ++ [e] }) s

end Sys2Proof.Machine
end

