-- ==== Sys2Proof/Machine/Lane.lean ====
section
/-! DEFINITION. Paddock lanes (13): the words of Table 13.2, one lane cycle of each instruction, the pins, the FIFOs and queues,
loads and resets of an engine. -/

namespace Sys2Proof.Machine

open Sys2Proof

/-! The lane's program (Tables 13.2, 13.5, 13.6). -/

/-- Entry of global lane `g` in its engine's header. -/
def laneEntry (s : State) (g : Nat) : DWord := Table.get 0 (getPk s (g / 8)).entries (g % 8)

def entryDir (w : DWord) : Byte := BitVec.ofNat 8 (dfld w 47 40)
def entryLvl (w : DWord) : Byte := BitVec.ofNat 8 (dfld w 39 32)
def entryPc (w : DWord) : Nat := dfld w 31 23
def entryW (w : DWord) : Nat := dfld w 22 18 + 1
def entryLsb (w : DWord) : Bool := dfld w 17 17 == 1
def entryAuto (w : DWord) : Bool := dfld w 16 16 == 1
def entryUse (w : DWord) : Nat := dfld w 15 14

/-- A lane is defined in the loaded program. -/
def laneDefined (s : State) (g : Nat) : Bool := (getPk s (g / 8)).lanes.toNat.testBit (g % 8)

/-- W of a lane. -/
def laneW (s : State) (g : Nat) : Nat := entryW (laneEntry s g)

/-- LSB-first order of a lane. -/
def laneLsb (s : State) (g : Nat) : Bool := entryLsb (laneEntry s g)

/-- The word at the lane's PC. -/
def laneWord (s : State) (g : Nat) : Word := Table.get 0 (getPk s (g / 8)).imem (getLane s g).pc

/-- The instruction that the word at PC spells, by its OP field. -/
def laneOp (s : State) (g : Nat) : Nat := (laneWord s g).fld 31 28

/-- The lane executes, and its next instruction has this OP. -/
def laneRuns (s : State) (g op : Nat) : Bool := decide ((getLane s g).st ≠ .stopped) && laneOp s g == op

/-! Pins (R368). -/

/-- Pin map entry of PK pin `n` (Table 13.9). -/
def pinEntry (s : State) (n : Nat) : Nat := yf s (R.pkPinmap + n / 2) (16 * (n % 2) + 15) (16 * (n % 2))

def pinEn (w : Nat) : Bool := w.testBit 15
def pinLane (w : Nat) : Nat := 8 * (w / 2 ^ 14 % 2) + w / 2 ^ 11 % 8
def pinLpin (w : Nat) : Nat := w / 256 % 8
def pinOd (w : Nat) : Bool := w.testBit 7
def pinPull (w : Nat) : Nat := w / 32 % 4

/-- PK pin given to lane pin `j` of lane `g`. -/
def pinOf (s : State) (g j : Nat) : Option Nat :=
  (List.range 24).find? fun n => pinEn (pinEntry s n) && pinLane (pinEntry s n) == g && pinLpin (pinEntry s n) == j

/-- Level at a PK pin: what the device drives, or the level that the board gives it. -/
def pinLevel (s : State) (n : Nat) (pins : BitVec 24) : Bool :=
  let w := pinEntry s n
  let x := getLane s (pinLane w)
  let out := x.dir.toNat.testBit (pinLpin w)
  let hi := x.level.toNat.testBit (pinLpin w)
  if pinEn w && out && !(pinOd w && hi) then hi else pins.toNat.testBit n

/-- Lane pin `j` as the lane reads it (R361, R368): 0 with no PK pin mapped. -/
def lanePin (s : State) (g j : Nat) (pins : BitVec 24) : Bool :=
  match pinOf s g j with
  | some n => pinLevel s n pins
  | none => false

/-- The eight lane pins as a number. -/
def lanePins (s : State) (g : Nat) (pins : BitVec 24) : Nat :=
  sumN ((List.range 8).map fun j => bit01 (lanePin s g j pins) * 2 ^ j)

/-! One lane cycle. -/

/-- The instruction completes: PC goes on and the lane runs. -/
def Lane.done (x : Lane) : Lane := { x with pc := (x.pc + 1) % 512, st := .running }

/-- The instruction cannot complete in this cycle (R360). -/
def Lane.stall (x : Lane) : Lane := { x with st := .stalled }

/-- The next bit out (R362). -/
def nextBit (lsb : Bool) (x : Lane) : Bool :=
  if x.fill = 0 then false else x.sh.toNat.testBit (if lsb then 0 else x.fill - 1)

/-- BR (Table 13.3). -/
def laneBr (w : Nat) (lsb : Bool) (word : Word) (pin : Nat → Bool) (x : Lane) : Lane :=
  let go := fun (b : Bool) (x : Lane) => if b then { x with pc := word.fld 8 0, st := .running } else x.done
  let p := word.fld 23 21
  match word.fld 27 24 with
  | 0 => go true x
  | 1 => go (x.ca == 0) x
  | 2 => if x.ca == 0 then go false x else go true { x with ca := x.ca - 1 }
  | 3 => go (x.cb == 0) x
  | 4 => if x.cb == 0 then go false x else go true { x with cb := x.cb - 1 }
  | 5 => go (pin p) x
  | 6 => go (!pin p) x
  | 7 => go (x.fill == 0) x
  | 8 => go (x.fill ≥ w) x
  | 9 => go (nextBit lsb x) x
  | _ => x.done

/-- HOLD (R366). -/
def laneHold (word : Word) (pin : Nat → Bool) (x : Lane) : Lane :=
  match word.fld 27 26 with
  | 0 => if pin (word.fld 24 22) == word.bit 25 then x.done else x.stall
  | 1 => if x.ca == 0 then x.done else { x with ca := x.ca - 1 }.stall
  | _ => if x.cb == 0 then x.done else { x with cb := x.cb - 1 }.stall

/-- The `n` bits that SHO takes, as the value v of R363. -/
def shoValue (lsb : Bool) (n : Nat) (x : Lane) : Nat :=
  if lsb then x.sh.toNat % 2 ^ n
  else if n ≤ x.fill then x.sh.toNat / 2 ^ (x.fill - n) % 2 ^ n
  else x.sh.toNat * 2 ^ (n - x.fill) % 2 ^ n

/-- SHO (R363). -/
def laneSho (lsb : Bool) (word : Word) (x : Lane) : Lane :=
  let n := word.fld 25 21 + 1
  let base := word.fld 20 18
  let v := shoValue lsb n x
  let left := x.fill - n
  let x := { x with
    fill := left
    sh := BitVec.ofNat 32 (if lsb then x.sh.toNat / 2 ^ n else x.sh.toNat % 2 ^ left) }
  let x := match word.fld 27 26 with
    | 0 =>
      let bit := fun (j : Nat) => v.testBit (if lsb then j else n - 1 - j)
      { x with level := BitVec.ofNat 8 (sumN ((List.range 8).map fun p =>
          bit01 (if base ≤ p && p < base + n then bit (p - base) else x.level.toNat.testBit p) * 2 ^ p)) }
    | 1 => { x with ca := BitVec.ofNat 16 v }
    | 2 => { x with cb := BitVec.ofNat 16 v }
    | _ => x
  x.done

/-- SHI (R364): `pins` is the eight lane pins. -/
def laneShi (lsb : Bool) (word : Word) (pins : Nat) (x : Lane) : Lane :=
  let n := word.fld 25 21 + 1
  let v := (match word.fld 27 26 with
    | 0 => pins / 2 ^ word.fld 20 18
    | 1 => x.ca.toNat
    | 2 => x.cb.toNat
    | _ => 0) % 2 ^ n
  { x with
    sh := BitVec.ofNat 32 (if lsb then x.sh.toNat + v * 2 ^ x.fill else x.sh.toNat * 2 ^ n + v)
    fill := min 32 (x.fill + n) : Lane }.done

/-- The bits of `old` under a mask take those of `v`. -/
def maskSet (old : Byte) (mask v : Nat) : Byte :=
  BitVec.ofNat 8 (sumN ((List.range 8).map fun p => bit01 (if mask.testBit p then v.testBit p else old.toNat.testBit p) * 2 ^ p))

/-- LVL and DIR (Table 13.2). -/
def laneLvl (word : Word) (x : Lane) : Lane := { x with level := maskSet x.level (word.fld 15 8) (word.fld 7 0) : Lane }.done
def laneDir (word : Word) (x : Lane) : Lane := { x with dir := maskSet x.dir (word.fld 15 8) (word.fld 7 0) : Lane }.done

/-- LD (R365). -/
def laneLd (w : Nat) (word : Word) (pins : Nat) (x : Lane) : Lane :=
  let v := match word.fld 25 23 with
    | 0 => x.ca.toNat
    | 1 => x.cb.toNat
    | 2 => x.sh.toNat
    | 3 => pins
    | _ => word.fld 15 0
  (match word.fld 27 26 with
    | 0 => { x with ca := BitVec.ofNat 16 v }
    | 1 => { x with cb := BitVec.ofNat 16 v }
    | _ => { x with sh := BitVec.ofNat 32 (v % 2 ^ w), fill := w }).done

/-- A non-blocking form met an empty or full FIFO (R367). -/
def Lane.wasStale (x : Lane) : Lane := { x with stale := true, staleN := min 255 (x.staleN + 1) }

/-- GIVE (R367). -/
def laneGive (word : Word) (x : Lane) : Lane :=
  if x.rx.length < 4 then { x with rx := x.rx ++ [x.sh], sh := 0, fill := 0 : Lane }.done
  else if word.bit 27 then { x.wasStale with rx := x.rx.take 3 ++ [x.sh], sh := 0, fill := 0 : Lane }.done
  else x.stall

/-- TAKE (R367). -/
def laneTake (w : Nat) (word : Word) (x : Lane) : Lane :=
  match x.tx with
  | v :: r => { x with tx := r, sh := BitVec.ofNat 32 (v.toNat % 2 ^ w), fill := w : Lane }.done
  | [] => if word.bit 27 then x.wasStale.done else x.stall

/-- A lane instruction with this OP executes in lane `g` (R359, R360). -/
def laneStep (op g : Nat) (f : Word → Lane → Lane) (s : State) : State :=
  if laneRuns s g op then setLane g (f (laneWord s g) (getLane s g)) s else s

/-- FLAG (R369): the event is raised, or merged into a raise that the yard has not accepted. -/
def laneFlag (g : Nat) (s : State) : State :=
  if !laneRuns s g 0xA then s
  else
    let ev := (laneWord s g).fld 5 0
    let s := setLane g (getLane s g).done s
    if s.pk.raised.toNat.testBit ev then
      let e := getPk s (g / 8)
      setPk (g / 8) { e with merged := min 255 (e.merged + 1) } s
    else { s with pk := { s.pk with raised := BitVec.ofNat 64 (setBit s.pk.raised.toNat ev) } }

/-! Queues (R370). -/

def txMove (g : Nat) (s : State) : State :=
  let x := getLane s g
  match x.txq with
  | w :: r => if s.power.fw && x.tx.length < 4 then setLane g { x with txq := r, tx := x.tx ++ [w] } s else s
  | [] => s

def rxMove (g : Nat) (s : State) : State :=
  let x := getLane s g
  match x.rx with
  | w :: r => if s.power.fw && x.rxq.length < 256 then setLane g { x with rx := r, rxq := x.rxq ++ [w] } s else s
  | [] => s

/-! Loads and resets. -/

/-- R373, steps 1 to 4, on one lane; the counters of Table 13.10 return to 0 first, and DISCARD then counts what this step
discards (log entry 21). -/
def idleLane (w : DWord) (x : Lane) : Lane :=
  { Lane.init with pc := entryPc w, dir := entryDir w, level := entryLvl w, discard := bit01 (x.fill ≠ 0) }

/-- Lanes of an engine. -/
def lanesOf (e : Nat) : List Nat := (List.range 8).map (8 * e + ·)

/-- Every lane of the engine is idle, under the entries of the engine's program. -/
def idleEngine (e : Nat) (s : State) : State :=
  forAll (lanesOf e) (fun g s => setLane g (idleLane (laneEntry s g) (getLane s g)) s) s

/-- Engine reset (R375): the program stays, the events' MERGED count too. A partial shift is a shadow kind (15, Table 15.13). -/
def resetPk (e : Nat) (s : State) : State :=
  let cut := (lanesOf e).filter fun g => (getLane s g).fill ≠ 0
  let s := forAll cut (fun g s => addTrip (fun b => match b with | .paddock q => q.val == e | _ => false)
    { code := 0x0B07, p1 := g, p2 := 11, die := 0, n := 1 } s) s
  idleEngine e s

/-- Length in words of a program image. -/
def pkLength (p : List Byte) : Nat := u16 p 4

def pkEntry (p : List Byte) (l : Nat) : DWord := BitVec.ofNat 64 (u64 p (16 + 8 * l))

/-- Instruction words of an image. -/
def pkCode (p : List Byte) : List Word := (List.range (pkLength p)).map fun i => BitVec.ofNat 32 (u32 p (128 + 4 * i))

/-- RSVD bits of an instruction, by its OP. -/
def opRsvd : Nat → Nat
  | 0x0 => 0x0FFFFFFF
  | 0x1 => 0x001FFE00
  | 0x2 => 0x003FFFFF
  | 0x3 | 0x4 => 0x0003FFFF
  | 0x5 | 0x6 => 0x0FFF0000
  | 0x7 => 0x007F0000
  | 0x8 | 0x9 => 0x07FFFFFF
  | 0xA => 0x0FFFFFC0
  | _ => 0

/-- Refused OP, code or COND, and an IMM that SRC does not name (Table 13.2). -/
def opRefused (w : Word) : Bool :=
  match w.fld 31 28 with
  | 0x1 => w.fld 27 24 ≥ 10
  | 0x2 => w.fld 27 26 == 3
  | 0x7 => w.fld 27 26 == 3 || w.fld 25 23 > 4 || (w.fld 25 23 != 4 && w.fld 15 0 != 0)
  | op => op ≥ 0xB

/-- A SHO or SHI beyond lane pin 7. -/
def opPins (w : Word) : Bool :=
  (w.fld 31 28 == 3 || w.fld 31 28 == 4) && w.fld 27 26 == 0 && w.fld 20 18 + w.fld 25 21 + 1 > 8

/-- Table 13.7's checks of an image: the first that fails. -/
def pkCheck (p : List Byte) : Option Nat :=
  let defined := (List.range 8).filter fun l => (u8 p 3).testBit l
  let code := pkCode p
  if u16 p 0 ≠ 0x504B || u8 p 2 ≠ 1 || pkLength p = 0 || pkLength p > 512 then some 0x0B
  else if !(slice p 6 2).all (· == 0) || !(slice p 12 4).all (· == 0) || !(slice p 80 48).all (· == 0)
      || defined.any (fun l => dfld (pkEntry p l) 63 48 != 0 || dfld (pkEntry p l) 13 0 != 0)
      || code.any (fun w => w.toNat &&& opRsvd (w.fld 31 28) ≠ 0) then some 3
  else if defined.any (fun l => entryUse (pkEntry p l) == 0 || entryUse (pkEntry p l) == 3 || entryPc (pkEntry p l) ≥ pkLength p)
    then some 0x0B
  else if code.any opRefused || code.any (fun w => w.fld 31 28 == 1 && w.fld 8 0 ≥ pkLength p) || code.any opPins then some 0x0B
  else none

/-- Load of a checked image (R373). -/
def loadPk (e : Nat) (p : List Byte) (s : State) : State :=
  let x := getPk s e
  let y : PkEngine :=
    { imem := (pkCode p).zipIdx.foldl (fun t a => Table.put 0 t a.2 a.1) [], length := pkLength p
      lanes := BitVec.ofNat 8 (u8 p 3), tag := BitVec.ofNat 32 (u32 p 8)
      entries := (List.range 8).foldl (fun t l => Table.put 0 t l (pkEntry p l)) [], merged := x.merged }
  idleEngine e (setPk e y s)

/-- Lanes start (R374). -/
def startLanes (gs : List Nat) (s : State) : State :=
  forAll gs (fun g s =>
    let x := getLane s g
    if laneDefined s g && x.st = .stopped then setLane g { x with st := .running } s else s) s

/-- Lanes stop where they stand (R372). -/
def stopLanes (gs : List Nat) (s : State) : State :=
  forAll gs (fun g s => setLane g { getLane s g with st := .stopped } s) s

/-- Every AUTO lane starts (R376). -/
def autoLanes (s : State) : State :=
  startLanes ((List.range 16).filter fun g => laneDefined s g && entryAuto (laneEntry s g)) s

/-! Registers of Tables 13.10 and 13.11. -/

def pkLaneSt (s : State) (g : Nat) : Word :=
  let x := getLane s g
  BitVec.ofNat 32 ((match x.st with | .stopped => 0 | .running => 1 | .stalled => 2) * 2 ^ 30 + x.pc % 512 * 2 ^ 21
    + x.fill * 2 ^ 15 + x.tx.length * 2 ^ 12 + x.rx.length * 2 ^ 9 + bit01 x.stale * 256 + x.staleN)

def pkLaneCnt (s : State) (g : Nat) : Word :=
  let x := getLane s g
  BitVec.ofNat 32 (x.discard * 2 ^ 24 + x.txq.length * 2 ^ 15 + x.rxq.length * 2 ^ 6)

def pkEngSt (s : State) (e : Nat) : Word :=
  let x := getPk s e
  let run := sumN ((List.range 8).map fun l => bit01 (decide ((getLane s (8 * e + l)).st ≠ .stopped)) * 2 ^ l)
  BitVec.ofNat 32 (run * 2 ^ 24 + x.lanes.toNat * 2 ^ 16 + bit01 (x.length ≥ 1) * 2 ^ 15 + x.merged)

end Sys2Proof.Machine
end

