-- ==== Sys2Proof/Machine/Pattern.lean ====
section
/-! DEFINITION. Pattern engines (06): curves in exact integer arithmetic, the program block, the evaluation of one frame,
starts, stops, the end of keyframes, delays and fades, and PE_ST. -/

namespace Sys2Proof.Machine

open Sys2Proof

/-! Curves (Table 6.5): C = floor(65,535 × c(x) + 0.5) for x = n / d. -/

/-- Fixed point of the cosine below: 128 fraction bits. -/
def fx : Nat := 2 ^ 128

/-- π in that fixed point, rounded down. -/
def piFx : Nat := 1069028584064966747859680373161870783300

/-- Terms of the cosine series from term `k` on, `n` of them: (−1)^k a^(2k) / (2k)!. -/
def cosTerms (a2 : Nat) (n k : Nat) (term : Nat) (acc : Int) : Int :=
  match n with
  | 0 => acc
  | m + 1 =>
    cosTerms a2 m (k + 1) (term * a2 / fx / ((2 * k + 1) * (2 * k + 2)))
      (if k % 2 = 0 then acc + (term : Int) else acc - (term : Int))

/-- cos(π p / q) in the fixed point, for 0 ≤ p ≤ q. -/
def cosPi (p q : Nat) : Int :=
  let a := piFx * p / q
  cosTerms (a * a / fx) 36 0 fx 0

/-- floor(65,535 × (1 − cos(π p / q)) / 2 + 0.5), for any p: the series is good to far below the distance from a tie, and
a rational tie is met by the guard of 2^-60 (log entry 18). -/
def sinSq (p q : Nat) : Nat :=
  let r := p % (2 * q)
  let r := if r > q then 2 * q - r else r
  ((65535 * ((fx : Int) - cosPi r q) + (fx : Int) + (2 : Int) ^ 68) / (2 * fx)).toNat

/-- The largest C up to `hi` with (2C − 1)^5 × d^11 ≤ 32 × 65,535^5 × n^11, by bisection. -/
def gammaC (n d fuel lo hi : Nat) : Nat :=
  match fuel with
  | 0 => lo
  | f + 1 =>
    if lo ≥ hi then lo
    else
      let m := (lo + hi + 1) / 2
      if (2 * m - 1) ^ 5 * d ^ 11 ≤ 32 * 65535 ^ 5 * n ^ 11 then gammaC n d f m hi else gammaC n d f lo (m - 1)

/-- C of Table 6.5 at progress n / d. -/
def curveC (curve n d : Nat) : Nat :=
  match curve with
  | 0 => if n = 0 then 0 else 65535
  | 1 => (2 * 65535 * n + d) / (2 * d)
  | 2 => sinSq n d
  | 3 => sinSq (2 * n) d
  | _ => gammaC n d 17 0 65535

/-- Output of a keyframe at progress n / d (R176). -/
def keyOut (l0 l1 curve n d : Nat) : Nat :=
  let c := curveC curve n d
  if l0 ≤ l1 then l0 + ((l1 - l0) * c + 32767) / 65535 else l0 - ((l0 - l1) * c + 32767) / 65535

/-! The program block of local engine `e` (Tables 6.2 to 6.4, 6.6). -/

def pgKeys (m : Img) (e : Nat) : Nat := dfld (progWord m e 0) 7 0
def pgFlags (m : Img) (e : Nat) : Nat := dfld (progWord m e 0) 15 8
def pgInit (m : Img) (e : Nat) : Nat := dfld (progWord m e 0) 31 16
def pgPhase (m : Img) (e : Nat) : Nat := dfld (progWord m e 0) 47 32
def pgFade (m : Img) (e : Nat) : Nat := dfld (progWord m e 0) 63 48
def pgEmit (m : Img) (e : Nat) : Nat := dfld (progWord m e 1) 7 0
def pgOffsets (m : Img) (e : Nat) : Nat := dfld (progWord m e 1) 15 8
def pgSpan (m : Img) (e : Nat) : Nat := dfld (progWord m e 1) 31 16
def pgAuto (m : Img) (e : Nat) : Bool := pgFlags m e % 2 == 1
def pgFromCur (m : Img) (e : Nat) : Bool := pgFlags m e / 2 % 2 == 1
def pgEnd (m : Img) (e : Nat) : Nat := pgFlags m e / 4 % 4
def pgStop (m : Img) (e : Nat) : Nat := pgFlags m e / 16 % 4

def keyframe (m : Img) (e q : Nat) : DWord := progWord m e (4 + q)

def kfLevel (w : DWord) : Nat := dfld w 63 48
def kfDur (w : DWord) : Nat := dfld w 47 32
def kfUnit (w : DWord) : Nat := dfld w 31 31
def kfCurve (w : DWord) : Nat := dfld w 30 28
def kfSweep (w : DWord) : Bool := dfld w 27 27 == 1
def kfFlow (w : DWord) : Nat := dfld w 26 24
def kfEmit (w : DWord) : Bool := dfld w 23 23 == 1
def kfLoop (w : DWord) : Nat := dfld w 22 18
def kfCount (w : DWord) : Nat := dfld w 17 10

/-- Site offset entry `i` (Table 6.6). -/
def offsetEntry (m : Img) (e i : Nat) : Nat := dfld (progWord m e (36 + i / 2)) (32 * (i % 2) + 31) (32 * (i % 2))

/-- Offset of a site: its entry among the first OFFSETS entries, or 0 (R178). -/
def siteOffset (m : Img) (e i : Nat) : Nat :=
  (((List.range (pgOffsets m e)).find? fun q => offsetEntry m e q % 2048 == i).map fun q => offsetEntry m e q / 65536).getD 0

/-- Members of the pattern group of engine `e` (R171). -/
def peGroup (m : Img) (e : Nat) : List Nat :=
  ((m.filter fun p => A.attr ≤ p.1 && p.1 < A.attr + 2048 && saPeEn p.2 && saPe p.2 == e)).map fun p => p.1 - A.attr

/-- Held output of a site; a site that has just joined takes the engine's level (R171). An engine that has ended under END = ZERO holds its
outputs to the next mark (R185). -/
def outOf (g : Engine) (i : Nat) : Nat :=
  match Table.find? g.outs i with
  | some v => v - 1
  | none => if g.st = .idle then 0 else g.level

def outsOf (l : List Nat) (f : Nat → Nat) : Table Nat := l.foldl (fun t i => Table.put 0 t i (f i + 1)) []

/-- D of a keyframe pass entered at a mark whose frame lasts `tf` ns (R177). -/
def durFrames (w : DWord) (tf : Nat) : Nat :=
  if kfUnit w = 0 then kfDur w else max 1 ((2 * kfDur w * 1000000 + tf) / (2 * max tf 1))

/-- Entry of keyframe `g.key`: L0, D and the limit of R179. -/
def enterKey (m : Img) (e tf : Nat) (g : Engine) : Engine :=
  let w := keyframe m e g.key
  let d := durFrames w tf
  { g with l0 := g.level, d := d, j := 0, clip := g.clip || (kfSweep w && kfUnit w = 1 && d ≤ pgSpan m e) }

/-- Frame `g.j` of the keyframe: each member's output and the engine level (R175, R176, R178, R179). -/
def evalFrame (m : Img) (e : Nat) (g : Engine) : Engine :=
  let w := keyframe m e g.key
  let d := max g.d 1
  let s := pgSpan m e
  let out := fun n dd => keyOut g.l0 (kfLevel w) (kfCurve w) n dd
  let site := fun i =>
    if kfSweep w then
      let clipped := d ≤ s
      let r := if clipped then 1 else d - s
      let o := min (min (siteOffset m e i) s) (if clipped then d - 1 else s)
      out (min r (g.j + 1 - o)) r
    else out (g.j + 1) d
  { g with outs := outsOf (peGroup m e) site, level := out (g.j + 1) d, ended := g.j + 1 ≥ d }

/-- Keyframe entered, or its next frame, evaluated. -/
def stepKey (m : Img) (e tf : Nat) (g : Engine) : Engine :=
  if g.d = 0 then evalFrame m e (enterKey m e tf g) else evalFrame m e { g with j := g.j + 1 }

/-- The end of the program (R185). Under ZERO the outputs become 0 at the next mark, where an IDLE engine has none. -/
def endProgram (m : Img) (e : Nat) (g : Engine) : Engine :=
  if pgEnd m e = 0 then { g with st := .done, ended := false } else { g with st := .idle, ended := false, level := 0 }

/-- Pass counter of keyframe `g.key`, as reloaded when it has not been touched (R174). -/
def passLeft (w : DWord) (g : Engine) : Nat := match Table.find? g.passes g.key with | some v => v - 1 | none => kfCount w

/-- The engine goes to another keyframe, entered at the next mark. -/
def gotoKey (q : Nat) (g : Engine) : Engine := { g with key := q, d := 0, j := 0, ended := false }

/-- After the keyframe's last frame: the level of R175 and the FLOW of R174. -/
def keyFlow (m : Img) (e : Nat) (g : Engine) : Engine :=
  let w := keyframe m e g.key
  let held := g.level
  let g := { g with level := if kfCurve w = 3 then g.l0 else kfLevel w }
  let next := fun (g : Engine) => if g.key + 1 < pgKeys m e then gotoKey (g.key + 1) g else endProgram m e { g with level := held }
  match kfFlow w with
  | 0 => next g
  | 1 =>
    let n := passLeft w g
    if n = 0 then next { g with passes := Table.put 0 g.passes g.key (kfCount w + 1) }
    else gotoKey (kfLoop w) { g with passes := Table.put 0 g.passes g.key n }
  | 2 => gotoKey (kfLoop w) g
  | _ => endProgram m e { g with level := held }

/-- EMIT of the keyframe that has ended: the trigger number it raises (Tables 6.3, 6.4). -/
def emitOf (m : Img) (e : Nat) (g : Engine) : Option Nat :=
  if kfEmit (keyframe m e g.key) && pgEmit m e ≥ 128 then some (pgEmit m e % 64) else none

/-- A keyframe's end waits (R174). -/
def keyDue (g : Engine) : Bool := decide (g.st = .running) && !g.inDelay && g.ended

/-- The PHASE frames have passed and frame 0 of keyframe 0 waits (R181). -/
def phaseDue (g : Engine) : Bool := decide (g.st = .running) && g.inDelay && g.ended

/-- Fade frame F has been evaluated (R182). -/
def fadeDue (g : Engine) : Bool := decide (g.st = .fading) && g.ended

/-- Frame 0 of keyframe 0 after the delay (R181). -/
def phaseEnd (m : Img) (e tf : Nat) (g : Engine) : Engine :=
  if phaseDue g then stepKey m e tf { g with inDelay := false, ended := false } else g

/-- After fade frame F the engine is IDLE (R182). -/
def fadeEndOp (g : Engine) : Engine := if fadeDue g then { g with st := .idle, ended := false, level := 0 } else g

/-- The keyframe's end with its EMIT. -/
def keyEnd (m : Img) (e : Nat) (g : Engine) : Engine × Option Nat :=
  if keyDue g then (keyFlow m e g, emitOf m e g) else (g, none)

/-- A start at this mark (R181, R187). -/
def startEngine (m : Img) (e : Nat) (g : Engine) : Engine :=
  if pgKeys m e = 0 then { g with dropped := min 15 (g.dropped + 1) }
  else
    let l := if pgFromCur m e then g.level else pgInit m e
    { g with st := .running, level := l, key := 0, d := 0, j := 0, passes := [], ended := false, fade := 0,
             inDelay := pgPhase m e ≠ 0, delay := pgPhase m e, stops := [] }

/-- A stop at this mark (R182). -/
def stopEngine (m : Img) (e : Nat) (imm : Bool) (g : Engine) : Engine :=
  if g.st = .idle then g
  else if imm || (pgStop m e = 0 && g.st ≠ .fading) then
    { g with st := .idle, level := 0, ended := false, inDelay := false, outs := [] }
  else if g.st = .fading then g
  else if pgStop m e = 2 then { g with st := .done, ended := false, inDelay := false }
  else { g with st := .fading, fade := 0, fadeFrom := g.level, stops := outsOf (peGroup m e) (outOf g), ended := false,
                inDelay := false }

/-- An engine reset (R186): IDLE, pass counters reloaded, PE_ST at its reset value. -/
def resetEngine : Engine := Engine.init

/-- A control at its mark (R183, R186). -/
def controlEngine (m : Img) (e : Nat) (c : PatCtl) (g : Engine) : Engine :=
  match c.act with
  | .start => startEngine m e g
  | .stop => stopEngine m e c.immediate g
  | .toggle => if g.st = .running then stopEngine m e c.immediate g else startEngine m e g
  | .reset => resetEngine

/-- One frame forward (R170). A PHASE delay that has run out leaves frame 0 to the end of the delay. A site that has joined the group of a
FADING engine fades from the engine's level, and one that has joined a DONE engine holds that level (R171; log entry 196). -/
def advance (m : Img) (e tf : Nat) (g : Engine) : Engine :=
  match g.st with
  | .idle => { g with outs := [], level := 0 }
  | .done => g
  | .fading =>
    let f := g.fade + 1
    let n := max (pgFade m e) 1
    let fall := fun v => v * (n - f) / n
    { g with fade := f, j := f, level := fall g.fadeFrom, ended := f ≥ n,
             outs := outsOf (peGroup m e) fun i => fall (match Table.find? g.stops i with | some v => v - 1 | none => g.fadeFrom) }
  | .running =>
    if g.inDelay then
      if g.delay = 0 then { g with ended := true }
      else { g with delay := g.delay - 1, outs := outsOf (peGroup m e) fun _ => g.level }
    else stepKey m e tf g

/-- What an earlier mark left pending, done before the next mark is evaluated. -/
def finishEngine (m : Img) (e tf : Nat) (g : Engine) : Engine × Option Nat :=
  keyEnd m e (fadeEndOp (phaseEnd m e tf g))

/-- At a mark: what is pending, then the controls of the mark, an engine reset first (R184, R186), then one frame. A start
without PHASE evaluates frame 0 at once; the last frame of a PHASE delay leaves frame 0 pending. What was pending ends with the frame
length that ends at the mark, `tfOld`; `tf` begins there. -/
def markEngine (m : Img) (e tfOld tf : Nat) (cs : List PatCtl) (g : Engine) : Engine × Option Nat :=
  let (g, em) := finishEngine m e tfOld g
  let g := (cs.filter fun c => c.act = .reset).foldl (fun g c => controlEngine m e c g) g
  let rest := cs.filter fun c => c.act ≠ .reset
  let g := match rest.getLast? with
    | some c => controlEngine m e c { g with dropped := min 15 (g.dropped + (rest.length - 1) + sumN (rest.map (·.superseded))) }
    | none => g
  (advance m e tf g, em)

/-- PE_ST (Table 6.12). -/
def peSt (g : Engine) : Word :=
  BitVec.ofNat 32 ((match g.st with | .idle => 0 | .running => 1 | .fading => 2 | .done => 3) * 2 ^ 30
    + bit01 g.inDelay * 2 ^ 29 + (g.key % 32) * 2 ^ 24 + (g.j % 65536) * 256 + bit01 g.clip * 128
    + min g.late 7 * 16 + min g.dropped 15)

/-- What a checkpoint of an engine holds (R193). -/
def checkpointOf (e : Nat) (frame : Word) (g : Engine) : Checkpoint :=
  { engine := e, frame := frame,
    st := match g.st with | .idle => 0 | .running => if g.ended then 5 else 1 | .fading => if g.ended then 6 else 2 | .done => 3
    delay := if g.inDelay then g.delay + 1 else 0, key := g.key, j := g.j, d := g.d, l0 := g.l0, level := g.level,
    passes := g.passes, fade := g.fade, fadeFrom := g.fadeFrom, outs := g.outs, stops := g.stops }

/-- An engine as a checkpoint restores it. -/
def fromCheckpoint (c : Checkpoint) : Engine :=
  { Engine.init with
    st := match c.st with | 1 | 5 => .running | 2 | 6 => .fading | 3 => .done | _ => .idle
    ended := c.st == 5 || c.st == 6, inDelay := c.delay ≠ 0, delay := c.delay - 1, key := c.key, j := c.j, d := c.d, l0 := c.l0,
    level := c.level, passes := c.passes, fade := c.fade, fadeFrom := c.fadeFrom, outs := c.outs, stops := c.stops }

/-- Engine advanced through the `n` marks after frame `f`, with the controls named meanwhile (R193). `era` gives the frame length from a mark
on, and whether the engines were frozen there: such a mark is not evaluated, and its controls wait (R196). No EMIT is delivered while
catching up (R189). -/
def catchUp (m : Img) (e : Nat) (era : Word → Nat × Bool) (n : Nat) (f : Word) (cs : List PatCtl) (g : Engine) : Engine :=
  match n with
  | 0 => g
  | k + 1 =>
    if (era (f + 1)).2 then catchUp m e era k (f + 1) cs g
    else
      let due := cs.filter fun c => markAtOrAfter (f + 1) c.mark
      catchUp m e era k (f + 1) (cs.filter fun c => !markAtOrAfter (f + 1) c.mark)
        (markEngine m e (era f).1 (era (f + 1)).1 due g).1

/-- Frame length from mark `w` on and whether the engines are frozen there, from a list of changes, newest first. -/
def eraAt (l : List (Word × Nat × Bool)) (w : Word) : Nat × Bool := ((l.find? fun e => markAtOrAfter w e.1).map (·.2)).getD (0, false)

/-- An era begins at mark `w`, unless the one in force goes on. -/
def pushEra (w : Word) (tf : Nat) (frozen : Bool) (l : List (Word × Nat × Bool)) : List (Word × Nat × Bool) :=
  match l with
  | e :: _ => if e.2 = (tf, frozen) then l else (w, tf, frozen) :: l
  | [] => [(w, tf, frozen)]

/-- The controls that wait after the marks `f + 1` to `f + n`: those named for a later mark, and those whose marks were all frozen (R196). -/
def stillDue (era : Word → Nat × Bool) (n : Nat) (f : Word) (cs : List PatCtl) : List PatCtl :=
  cs.filter fun c => (List.range n).all fun i =>
    let w := f + 1 + BitVec.ofNat 32 i
    !markAtOrAfter w c.mark || (era w).2

/-- Marks from `f` to `to`. -/
def marksTo (f m : Word) : Nat := if markAtOrAfter m f then (m - f).toNat else 0

/-- What the yard sends of the engines of a shed whose checkpoints refer to mark `f0`: advanced to mark `f`, with the controls since (R193). -/
def restoreEngines (m : Img) (eras : List (Word × Nat × Bool)) (f0 f : Word) (check : Nat → Option Checkpoint) (cs : List PatCtl) : Restore :=
  let n := marksTo f0 f
  let g := fun (e : Nat) => catchUp m e (eraAt eras) n f0 (cs.filter fun c => c.engine == e) (((check e).map fromCheckpoint).getD Engine.init)
  { frame := f, eras := eras
    engines := ((List.range 16).filter fun e => decide ((g e).st ≠ .idle)).map fun e => checkpointOf e f (g e)
    dropped := (List.range 16).foldl (fun t e => Table.put 0 t e (g e).dropped) []
    clips := (List.range 16).filter fun e => (g e).clip
    ctls := stillDue (eraAt eras) n f0 cs }

/-- An engine at the rejoin, brought from mark `r.frame` to mark `f` with the controls `cs` named since; what PE_ST counts goes on from
the shed's own engine (R193; Table 6.12). -/
def restoredEngine (m : Img) (r : Restore) (f : Word) (cs : List PatCtl) (e : Nat) (own : Engine) : Engine :=
  let from_ := ((r.engines.find? fun c => c.engine == e).map fromCheckpoint).getD Engine.init
  let g := catchUp m e (eraAt r.eras) (marksTo r.frame f) r.frame (cs.filter fun c => c.engine == e)
    { from_ with dropped := Table.get 0 r.dropped e, clip := r.clips.contains e }
  { g with clip := g.clip || own.clip, late := own.late, dropped := min 15 (own.dropped + g.dropped) }

/-- The auto start of a mark, then its evaluation (R170, R197). -/
def evalMark (m : Img) (e : Nat) (p : PastMark) (cs : List PatCtl) (g : Engine) : Engine :=
  (markEngine m e p.tfOld p.tf cs (if p.auto && pgAuto m e && pgKeys m e ≠ 0 then startEngine m e g else g)).1

/-- A late control joins the mark it names, and the engine is advanced through the marks since (R192): the engine, and those marks as they
are then. A load after the named mark leaves nothing of the control (R199). -/
def replay (m : Img) (c : PatCtl) (ps : List PastMark) (g : Engine) : Engine × List PastMark :=
  let e := c.engine
  match ps.filter fun p => markAtOrAfter p.frame c.mark with
  | [] => (g, ps)
  | p :: rest =>
    if (p :: rest).any fun q => q.loads.contains e && decide (q.frame ≠ c.mark) then (g, ps)
    else
      let before := ps.filter fun p => !markAtOrAfter p.frame c.mark
      let all := { p with ctls := p.ctls ++ [c] } :: rest
      let r := all.foldl (fun (a : Engine × List PastMark) q =>
        (evalMark m e q (q.ctls.filter fun x => x.engine == e) a.1,
         a.2 ++ [{ q with engines := Table.put Engine.init q.engines e a.1 }])) (Table.get Engine.init p.engines e, [])
      (r.1, before ++ r.2)

end Sys2Proof.Machine
end

