-- ==== Sys2Proof/Machine/Placer.lean ====
section
/-! DEFINITION. Timing within a frame (04): usable spans, the spread of on-time over periods, the levelling placer, spread
sub-pulses, and the row contention factor. Times are grey clocks; currents are in units of 1 µA / 4,095, so that amplitude
codes stay exact. -/

namespace Sys2Proof.Machine

open Sys2Proof

/-- Usable span of row `r` at 1:`n` with blanking `b`: its start and end (R124). -/
def rowSpan (p n b r : Nat) : Nat × Nat :=
  if n ≤ 1 then (0, p) else (r * p / n + 40, (r + 1) * p / n - b)

/-- Slot of row `r` at 1:`n`: its start and end (R124). -/
def rowSlot (p n r : Nat) : Nat × Nat := (r * p / max n 1, (r + 1) * p / max n 1)

/-- On-time per period of a frame on-time `t` (R122), with the shortest pulse `minP` in place of 10 grey clocks where a
booster needs it (03, R103). -/
def periodTimes (np minP c t : Nat) : List Nat :=
  let k := min np (t / max minP 1)
  (List.range np).map fun p =>
    (((List.range k).find? fun i => (i * np / k + c) % np == p).map fun i => t / k + (if i < t % k then 1 else 0)).getD 0

/-- Dither of R120: target in 1/256 grey clock, residue, shortest pulse; the on-time and the new residue. -/
def dither (target residue minP : Nat) : Nat × Nat :=
  let u := target + residue
  if u < minP * 256 then (0, u) else (u / 256, u % 256)

/-- One member's part of a placer item: a single site has one part, an exclusivity block one for each member (R128, R140). -/
structure Part where
  site : Nat
  group : Nat
  row : Nat
  /-- The row's switch is in ROW mode and the pulse belongs to its load (R137). -/
  load : Bool
  cur : Nat
  off : Nat
  len : Nat
  deriving DecidableEq, Repr

structure PlaceItem where
  parts : List Part
  len : Nat
  span : Nat × Nat
  deriving DecidableEq, Repr

/-- Charge of an item (R128). -/
def PlaceItem.q (i : PlaceItem) : Nat := sumN (i.parts.map fun p => p.cur * p.len)

def PlaceItem.low (i : PlaceItem) : Nat := (i.parts.map (·.site)).foldl min 1000000

/-- Sort order of R128: q descending, then t descending, then the lowest site number. -/
def PlaceItem.before (a b : PlaceItem) : Bool :=
  a.q > b.q || (a.q == b.q && (a.len > b.len || (a.len == b.len && a.low < b.low)))

def insertItem (x : PlaceItem) : List PlaceItem → List PlaceItem
  | [] => [x]
  | y :: r => if y.before x then y :: insertItem x r else x :: y :: r

def sortItems (l : List PlaceItem) : List PlaceItem := l.foldr insertItem []

/-- Profiles over the 64 bins: charge times W, bin peak, row load (04). Keys are 64 × group + bin, 64 × row + bin. -/
structure Profiles where
  charge : Table Nat
  peak : Table Nat
  load : Table Nat
  deriving DecidableEq, Repr

/-- Clocks by which bin `k` of width `w` overlaps a pulse of length `t` at `x`. -/
def overlap (w k x t : Nat) : Nat := min ((k + 1) * w) (x + t) - max (k * w) x

/-- Bins that a pulse touches. -/
def touched (w x t : Nat) : List Nat := (List.range 64).filter fun k => overlap w k x t > 0

/-- Key of a start (R128): fits or not, excess, cost, top, start. Each part of a block counts with its own member's current over its own
part, as R128 says of the updates (log entry 189). -/
def placeKey (w budget : Nat) (f : Profiles) (i : PlaceItem) (x : Nat) : List Nat :=
  let each := i.parts.flatMap fun p => (touched w (x + p.off) p.len).map fun k => (p, k)
  let exc := maxN (each.map fun a =>
    if a.1.load then Table.get 0 f.load (64 * a.1.row + a.2) + a.1.cur - budget else 0)
  let cost := sumN (each.map fun a => Table.get 0 f.charge (64 * a.1.group + a.2) * overlap w a.2 (x + a.1.off) a.1.len)
  let top := maxN (each.map fun a => Table.get 0 f.peak (64 * a.1.group + a.2) + a.1.cur)
  [if exc = 0 then 0 else 1, exc, cost, top, x]

/-- Lexicographic order of keys. -/
def keyLt : List Nat → List Nat → Bool
  | [], _ => false
  | _, [] => false
  | a :: r, b :: q => a < b || (a == b && keyLt r q)

/-- Candidate starts of an item, ascending (R128). -/
def candidates (w : Nat) (i : PlaceItem) : List Nat :=
  let s0 := i.span.1
  let last := i.span.2 - i.len
  ([s0] ++ ((List.range 64).map (· * w)).filter (fun b => s0 < b && b + i.len ≤ i.span.2) ++ [last])

def bestStart (w budget : Nat) (f : Profiles) (i : PlaceItem) : Nat :=
  match candidates w i with
  | [] => i.span.1
  | x :: r =>
    (r.foldl (fun (a : Nat × List Nat) y =>
      let k := placeKey w budget f i y
      if keyLt k a.2 then (y, k) else a) (x, placeKey w budget f i x)).1

/-- An item placed at `x` joins the profiles. -/
def addItem (w x : Nat) (i : PlaceItem) (f : Profiles) : Profiles :=
  i.parts.foldl (fun f p => (touched w (x + p.off) p.len).foldl (fun (f : Profiles) k =>
    { charge := Table.upd 0 f.charge (64 * p.group + k) (· + p.cur * overlap w k (x + p.off) p.len)
      peak := Table.upd 0 f.peak (64 * p.group + k) (· + p.cur)
      load := if p.load then Table.upd 0 f.load (64 * p.row + k) (· + p.cur) else f.load }) f) f

/-- The levelling placer: the start of each item, and the profiles (R128, R129). -/
def placeAll (w budget : Nat) (items : List PlaceItem) : List (PlaceItem × Nat) × Profiles :=
  (sortItems items).foldl (fun (a : List (PlaceItem × Nat) × Profiles) i =>
    let x := bestStart w budget a.2 i
    (a.1 ++ [(i, x)], addItem w x i a.2)) ([], { charge := [], peak := [], load := [] })

/-- The check of R130 on a run, but for the parity of the memories: every part lies within its item's span, and the charge of each group
is that of its items. -/
def placedRight (a : List (PlaceItem × Nat) × Profiles) : Bool :=
  (a.1.all fun i => i.1.parts.all fun p => i.1.span.1 ≤ i.2 + p.off && i.2 + p.off + p.len ≤ i.1.span.2)
  && (List.range 4).all fun g =>
    sumN ((List.range 64).map fun b => Table.get 0 a.2.charge (64 * g + b))
      == sumN (a.1.map fun i => sumN ((i.1.parts.filter fun p => p.group == g).map fun p => p.cur * p.len))

/-! Spread mode (R131). -/

/-- `n` low bits of `v` in reversed order. -/
def bitrev (n v : Nat) : Nat :=
  match n with
  | 0 => 0
  | m + 1 => (v % 2) * 2 ^ m + bitrev m (v / 2)

/-- Smallest power of two at or above `m`, as its exponent, up to 64. -/
def log2Up (m : Nat) : Nat := if m ≤ 1 then 0 else if m ≤ 2 then 1 else if m ≤ 4 then 2 else if m ≤ 8 then 3
  else if m ≤ 16 then 4 else if m ≤ 32 then 5 else 6

/-- The windows 0 to m − 1 in rank order (R131 step 3). -/
def rankOrder (m : Nat) : List Nat :=
  ((List.range (2 ^ log2Up m)).map (bitrev (log2Up m))).filter (· < m)

def rankOf (m w : Nat) : Nat := (rankOrder m).findIdx (· == w)

def winStart (l m w : Nat) : Nat := w * l / m
def winWidth (l m w : Nat) : Nat := (w + 1) * l / m - w * l / m

/-- Lengths with the surplus of over-long windows passed on in rank order to windows with room (R131 step 5). `carry` is
the surplus on its way. -/
def passSurplus (width : Nat → Nat) (ws : List Nat) (len : Table Nat) (carry : Nat) : Table Nat × Nat :=
  ws.foldl (fun (a : Table Nat × Nat) w =>
    let t := Table.get 0 a.1 w + a.2
    (Table.put 0 a.1 w (min t (width w)), t - width w)) (len, carry)

/-- An on-time `t` split over `m` windows (R131 step 3). -/
def splitLens (m t : Nat) : List Nat := (List.range m).map fun w => t / m + (if rankOf m w < t % m then 1 else 0)

/-- Sub-pulse lengths of an on-time `t` in `m` windows of a span of `l` clocks (R131 steps 3 and 5). -/
def subLens (l m t : Nat) : List Nat :=
  let tab := Table.putAll 0 [] 0 (splitLens m t)
  let a := passSurplus (winWidth l m) (rankOrder m) tab 0
  let b := passSurplus (winWidth l m) (rankOrder m) a.1 a.2
  (List.range m).map fun w => Table.get 0 b.1 w

/-- φ of R131: the channel's phase within a window of width `w`. -/
def phi (c w : Nat) : Nat := bitrev 7 c * w / 128

/-- Sub-pulses of one on-time: start and length (R131). -/
def spreadPulses (s0 l m minP c t : Nat) : List (Nat × Nat) :=
  let m' := max 1 (min m (t / max minP 1))
  if t = 0 then []
  else
    let lens := subLens l m' t
    (List.range m').map fun w =>
      let n := lens.getD w 0
      (s0 + winStart l m' w + min (phi c (winWidth l m' w)) (winWidth l m' w - n), n)

/-- Windows of an exclusivity block in a period, from its members' shortest pulses and on-times: no sub-pulse is shorter than its
member's shortest pulse (R140; 03, R103). -/
def blockWindows (m : Nat) (ts : List (Nat × Nat)) : Nat :=
  max 1 ((ts.filter fun a => a.2 ≠ 0).foldl (fun n a => min n (a.2 / max a.1 1)) m)

/-- Sub-pulses of the members of an exclusivity block in one period, in order: member and pulses (R140). A member is given by its site,
its shortest pulse and its on-time. -/
def spreadBlock (s0 l m c : Nat) (ts : List (Nat × Nat × Nat)) : List (Nat × List (Nat × Nat)) :=
  let mb := blockWindows m (ts.map (·.2))
  let lens := ts.map fun a => splitLens mb a.2.2
  let total := fun w => sumN (lens.map fun x => x.getD w 0)
  (List.range ts.length).map fun i =>
    ((ts.getD i (0, 0, 0)).1,
     ((List.range mb).map fun w =>
        let before := sumN ((lens.take i).map fun x => x.getD w 0)
        (s0 + winStart l mb w + min (phi c (winWidth l mb w)) (winWidth l mb w - total w) + before,
         (lens.getD i []).getD w 0)).filter fun x => x.2 ≠ 0)

/-- The members fit in every window (R139). -/
def blockFits (l m : Nat) (ts : List (Nat × Nat)) : Bool :=
  let mb := blockWindows m ts
  (List.range mb).all fun w => sumN (ts.map fun a => (splitLens mb a.2).getD w 0) ≤ winWidth l mb w

/-! Contention (R141, R142). -/

/-- A driven site for the row load: its pulses of every period, as start within the period and length. -/
structure RowSite where
  row : Nat
  regulated : Bool
  cur : Nat
  pulses : List (Nat × Nat)
  deriving DecidableEq, Repr

/-- Sum of the currents of the sites of one class of a row whose pulses overlap bin `k`. -/
def rowLoad (w : Nat) (ps : List RowSite) (row : Nat) (regd : Bool) (k : Nat) : Nat :=
  sumN ((ps.filter fun p => p.row == row && p.regulated == regd && p.pulses.any fun x => overlap w k x.1 x.2 > 0).map (·.cur))

/-- The contention factor of a row as numerator and denominator (R141); none when no bin exceeds the budget. -/
def rowFactor (w budget : Nat) (ps : List RowSite) (row : Nat) : Option (Nat × Nat) :=
  (List.range 64).foldl (fun (a : Option (Nat × Nat)) k =>
    let g := rowLoad w ps row true k
    let st := rowLoad w ps row false k
    if g + st ≤ budget then a
    else
      let f := if budget ≤ g || st = 0 then (0, 1) else (budget - g, st)
      match a with
      | none => some f
      | some b => if f.1 * b.2 < b.1 * f.2 then some f else a) none

/-- Regulated load above the budget alone (R142): its largest bin value. -/
def regOver (w budget : Nat) (ps : List RowSite) (row : Nat) : Option Nat :=
  let m := maxN ((List.range 64).map (rowLoad w ps row true))
  if m > budget then some m else none

end Sys2Proof.Machine
end

