-- ==== Sys2Proof/Machine/Plan.lean ====
section
/-! DEFINITION. What a shed plans for one frame: the configuration it plans with, the blended value and the product of each
lit site (00 R17; 03; 04 R119 to R122; 05 R152; 07 R217, R219; 08 R238 to R247), the loss tables (09 R261 to R266), the
items and pulses of levelling and spread mode (04 R128 to R140) and contention (04 R141). Sites, channels and rows are the
shed's own numbers. -/

namespace Sys2Proof.Machine

open Sys2Proof

/-! Configuration of a shed, from the set of registers it plans or drives with (03, R114). -/

/-- A register of a shed's configuration. -/
def cw (t : Table Word) (n : Nat) : Word := (Table.find? t n).getD (regInit n)

/-- A field of it. -/
def cf (t : Table Word) (n hi lo : Nat) : Nat := (cw t n).fld hi lo

/-- Rows of the shed (03, Table 3.10). -/
def rowsOf (t : Table Word) : Nat := cf t R.shedCfg 31 28 + 1

def chOf (i : Nat) : Nat := i % 128
def rowOf (i : Nat) : Nat := i / 128
def groupOf (c : Nat) : Nat := c / 32

/-- PAR code of a channel's quad (03, Table 3.4). -/
def parOf (t : Table Word) (c : Nat) : Nat :=
  let q := c % 32 / 4
  cf t (R.sgCfg + c / 32) (16 + 2 * q + 1) (16 + 2 * q)

/-- Members of the channel's paralleled group, and its commanding channel (03, R93). -/
def membersOf (t : Table Word) (c : Nat) : Nat := match parOf t c with | 1 => 2 | 2 => 4 | _ => 1
def commanderOf (t : Table Word) (c : Nat) : Nat := c - c % membersOf t c

/-- Booster channel bound to channel `c` (03, R101, R105). -/
def boosterOf (t : Table Word) (c : Nat) : Option Nat :=
  (List.range 8).find? fun n => cf t (R.xcCfg + n) 31 31 == 1 && cf t (R.xcCfg + n) 30 24 == c

/-- Shortest pulse of a channel in grey clocks (04 R123; 03 R103). -/
def minPulse (t : Table Word) (c : Nat) : Nat :=
  match boosterOf t c with
  | some n => max 10 (cf t (R.xcCfg + n) 21 16 * 64)
  | none => 10

/-- Range full scale of a group in µA, its dropout and its lowest headroom target in mV (03, Table 3.2). -/
def rangeOf (t : Table Word) (g : Nat) : Nat := cf t R.shedCfg (8 + 2 * g + 1) (8 + 2 * g)
def fullScale (t : Table Word) (g : Nat) : Nat := match rangeOf t g with | 0 => 15000 | 1 => 30000 | _ => 60000
def dropout (t : Table Word) (g : Nat) : Nat := match rangeOf t g with | 0 => 200 | 1 => 300 | _ => 400

/-- Group full scale of a channel (03, R95). -/
def chanScale (t : Table Word) (c : Nat) : Nat := fullScale t (groupOf c) * membersOf t c

/-- Usable span of a site: boosters are not bound to row slots (04, R124; 03, R102). -/
def spanOf (t : Table Word) (p i : Nat) : Nat × Nat :=
  if (boosterOf t (chOf i)).isSome then (0, p) else rowSpan p (rowsOf t) (10 * cf t R.dimCfg 31 25) (rowOf i)

/-- Mode code of a scan switch (03, Table 3.6). -/
def switchMode (t : Table Word) (r : Nat) : Nat := cf t R.scanCfg (2 * r + 1) (2 * r)
def switchGate (t : Table Word) (r : Nat) : Nat := cf t R.scanGate (2 * r + 1) (2 * r)

/-- Row current budget in µA (03, Table 3.11). -/
def budgetOf (t : Table Word) : Nat := cf t R.scanAux 31 24 * 10000

/-- The site can be driven at all: its row is below the row count, it is not a follower of a paralleled group, and a
booster binding leaves its row-0 site only (00 R6, R7; 03 R93, R101). -/
def drivable (t : Table Word) (i : Nat) : Bool :=
  decide (rowOf i < rowsOf t) && chOf i % membersOf t (chOf i) == 0
    && ((boosterOf t (chOf i)).isNone || rowOf i == 0)

/-- Probe interval of a site's class in periods (08, R238). -/
def probeInterval (t : Table Word) (regulated : Bool) : Nat :=
  2 ^ (if regulated then cf t R.diagCfg 23 20 else cf t R.diagCfg 27 24)

def getSite (d : Shed) (i : Nat) : Site := Table.get Site.init d.sites i

/-- The entries of a site table, changed; initial ones are not listed. -/
def mapSites (f : Nat → Site → Site) (t : Table Site) : Table Site :=
  t.filterMap fun p => let x := f p.1 p.2; if x = Site.init then none else some (p.1, x)

def setSite (i : Nat) (x : Site) (d : Shed) : Shed := { d with sites := Table.put Site.init d.sites i x }
def updSite (i : Nat) (f : Site → Site) (d : Shed) : Shed := setSite i (f (getSite d i)) d
def getChan (d : Shed) (c : Nat) : Chan := Table.get Chan.init d.chans c
def setChan (c : Nat) (x : Chan) (d : Shed) : Shed := { d with chans := Table.put Chan.init d.chans c x }
def getEngine (d : Shed) (e : Nat) : Engine := Table.get Engine.init d.engines e
def setEngine (e : Nat) (g : Engine) (d : Shed) : Shed := { d with engines := Table.put Engine.init d.engines e g }

/-- A failure verdict (08, STYLING functions). -/
def failVerdict (v : Nat) : Bool := 2 ≤ v && v ≤ 6

/-- State of a function in the shed: 0 NORMAL, 1 FAILED_OFF, 2 RETEST. -/
def fnState (d : Shed) (f : Nat) : Nat := Table.get 0 d.drive.failed f

/-- Sites of the shed that belong to a function and can be driven, in site order. -/
def lamps (d : Shed) : List Nat := (litSites d.front).filter (drivable d.cfg)

def siteFn (d : Shed) (i : Nat) : Nat := saFn (siteAttr d.front i)

/-- The site serves a REGULATED function; one without a function counts as STYLING (05, R150). -/
def siteReg (d : Shed) (i : Nat) : Bool := saFnEn (siteAttr d.front i) && fnRegulated d.front (siteFn d i)

/-! Blending (05, R152). -/

/-- Blend of a frame value and a pattern output (05, Table 5.6). -/
def blend (mode f p : Nat) : Nat :=
  match mode with
  | 0 => f
  | 1 => p
  | 2 => max f p
  | _ => (f * p + 32767) / 65535

/-- Pattern output of a site. -/
def patternOut (d : Shed) (i : Nat) : Nat :=
  let a := siteAttr d.front i
  if saPeEn a then outOf (getEngine d (saPe a)) i else 0

/-- First valid fallback entry that names site `i` (05, R168). -/
def fallbackOf (m : Img) (i : Nat) : Option Nat :=
  ((List.range 256).map (fallbackEntry m)).find? fun w => w / 32768 % 2 == 1 && w % 2048 == i

/-- The shed shows its fallback image. -/
def showsFallback (d : Shed) : Bool := decide (d.mode = .fallback)

/-- Blended value before substitution (05 R152, R168; 08 R248). -/
def ownValue (d : Shed) (i : Nat) : Nat :=
  let b := fnBlend d.front (siteFn d i)
  if fnState d (siteFn d i) ≠ 0 then 0
  else if showsFallback d then
    match fallbackOf d.front i with
    | some w => if w / 16384 % 2 == 1 then blend b (w / 65536) (patternOut d i) else w / 65536
    | none => 0
  else blend b (frameValue d.front i) (patternOut d i)

/-- The site hands its value to a substitute (08, R247). -/
def givesTo (d : Shed) (i : Nat) : Option Nat :=
  let a := siteAttr d.front i
  if saSubEn a && !siteReg d i && failVerdict (getSite d i).verdict then some (saSub a) else none

/-- Blended grey value of every lamp, with substitutes and FAILDARK (08, R246, R247). -/
def blendedAll (d : Shed) : List (Nat × Nat) :=
  let ls := lamps d
  let gifts := ls.filterMap fun i => (givesTo d i).map fun j => (j, ownValue d i)
  ls.map fun i =>
    let bad := failVerdict (getSite d i).verdict
    let own := ownValue d i
    let v := if siteReg d i || bad then own else maxN (own :: ((gifts.filter fun p => p.1 == i).map (·.2)))
    (i, if cf d.cfg R.diagCfg 12 12 == 1 && bad && !siteReg d i then 0 else v)

/-! The product of R17. -/

/-- Curve point `k` of class `c` (07, Table 7.9). -/
def curvePoint (t : Table Word) (c k : Nat) : Nat :=
  let w := cw t (R.curve + (9 * c + k) / 2)
  if (9 * c + k) % 2 == 0 then w.fld 14 0 else w.fld 30 16

/-- Colour compensation code of a lamp temperature in 1/16 K of °C (07, R217). -/
def colourCode (t : Table Word) (c : Nat) (tl : Int) : Nat :=
  if cf t R.ltCfg 12 12 == 0 then 16384
  else
    let x := max (-640) (min 2560 tl)
    let k := min 7 ((x + 640) / 400).toNat
    let p := curvePoint t c k
    let q := curvePoint t c (k + 1)
    ((p : Int) + ((q : Int) - (p : Int)) * (x - (-640 + 400 * (k : Int))) / 400).toNat

/-- LT_MAP entry of a channel and its fields (07, Table 7.4). -/
def ltMap (t : Table Word) (c : Nat) : Nat := cf t (R.ltMap + c / 4) (8 * (c % 4) + 7) (8 * (c % 4))
def anodeOf (t : Table Word) (c : Nat) : Nat := ltMap t c / 64
def ntcEnOf (t : Table Word) (c : Nat) : Bool := ltMap t c / 32 % 2 == 1
def ntcOf (t : Table Word) (c : Nat) : Nat := ltMap t c / 8 % 4

/-- Place of a channel's board temperature in `Warm.base`: its input, or TFIX. -/
def baseIndex (t : Table Word) (c : Nat) : Nat := if ntcEnOf t c then ntcOf t c else 4

/-- Lamp temperature in force of a site, 1/16 K (07, R209, R211). -/
def lampT (d : Shed) (i : Nat) : Int := d.warm.base.getD (baseIndex d.cfg (chOf i)) 0 + (getSite d i).used

/-- Derate code of a function in the shed: what it lacks of 16,384 is listed. -/
def derateOf (d : Shed) (f : Nat) : Nat := 16384 - Table.get 0 d.drive.derate f

/-- Amplitude code and duty of R119; the duty as a fraction. -/
def splitProduct (g num den : Nat) : Nat × (Nat × Nat) :=
  if num ≤ den then ((2 * 4095 * num + den) / (2 * den), (g, 65535))
  else if g * num ≥ 65535 * den then (4095, (1, 1)) else (4095, (g * num, 65535 * den))

/-- Sites that a capture names and that no function lights: they carry its pulses (07, R213). -/
def captureOnly (d : Shed) (lit : List (Nat × Nat)) : List (Nat × Nat) :=
  match d.drive.capture with
  | some c => ((c.sites.map (·.site)).filter fun i => drivable d.cfg i && !(lit.any fun a => a.1 == i)).map fun i => (i, 0)
  | none => []

/-- The lit sites with their factors (00 R17; 05 R151), and those of a capture. -/
def lits (d : Shed) : List Lit :=
  let p := d.perP
  let lit := blendedAll d
  (lit ++ captureOnly d lit).map fun a =>
    let i := a.1
    let w := siteAttr d.front i
    let c := chOf i
    let num := dotOf d.front c * colourCode d.cfg (saColour w) (lampT d i) * derateOf d (saFn w)
    let den := 255 * 16384 * 16384
    { site := i, ch := c, row := rowOf i, group := groupOf c, fn := saFn w, regulated := siteReg d i
      booster := (boosterOf d.cfg c).isSome, g := a.2, num := num, den := den, full := (splitProduct 65535 num den).1
      span := spanOf d.cfg p i, fs := chanScale d.cfg c, excl := saExcl w, prio := fnPriority d.front (saFn w) }

/-- Mixed lamp of a site: quad and row (07, R219). -/
def mixKey (d : Shed) (l : Lit) : Option (Nat × Nat) :=
  if l.g ≠ 0 && !l.regulated && !l.booster && (cw d.cfg R.mixCfg).bit (l.ch / 4) then some (l.ch / 4, l.row) else none

/-- The governor factor joins the product, and colour hold scales the mixed lamps (07, R219; 09). -/
def withGovernor (d : Shed) (gs gr : Nat) (ls : List Lit) : List Lit :=
  let ls := ls.map fun l => { l with num := l.num * (if l.regulated then gr else gs), den := l.den * 4096 }
  ls.map fun l =>
    match mixKey d l with
    | none => l
    | some k =>
      let top := maxN ((ls.filter fun x => mixKey d x == some k).map fun x => x.g * x.num)
      if top > 65535 * l.den then { l with num := l.num * 65535, den := top } else l

/-- On-time target in 1/256 grey clock (04, R120). -/
def onTarget (np : Nat) (l : Lit) (duty : Nat × Nat) : Nat := 256 * duty.1 * np * (l.span.2 - l.span.1) / duty.2

/-! Prediction (09, R261 to R263). -/

/-- Supply reference of a site in mV (08, R228): a row whose slot has not been sampled takes its switch's supply (log entry 33). -/
def supplyRef (d : Shed) (l : Lit) : Nat :=
  if rowsOf d.cfg = 1 then d.warm.vls.getD l.group 0
  else (Table.find? d.warm.rowRef l.row).getD (d.warm.vscan.getD (l.row / 4) 0)

/-- Headroom voltage of a site in mV: the last valid sample, or the supply reference. -/
def siteVolts (d : Shed) (l : Lit) : Nat := ((getChan d l.ch).sample).getD (supplyRef d l)

/-- Bound of the switch current of a site in µA (R261). -/
def feedCurrent (d : Shed) (ls : List Lit) (l : Lit) : Rat :=
  let part := fun (x : Lit) => (x.fs : Rat) * min 1 ((x.num : Rat) / (x.den : Rat))
  let sum := fun (f : Lit → Bool) => (((ls.filter fun x => x.g ≠ 0 && !x.booster && f x).map part).foldl (· + ·) 0)
  if rowsOf d.cfg = 1 then
    if (List.range 16).any fun r => switchMode d.cfg r ≥ 2 && switchGate d.cfg r == l.group
    then sum fun x => x.group == l.group else 0
  else sum fun x => x.row == l.row

/-- Loss of a site's sink and switch path per µA of its current, in mW. -/
def pathLoss (d : Shed) (ls : List Lit) (l : Lit) : Rat :=
  ((siteVolts d l * 1000 : Nat) + feedCurrent d ls l * (35 : Rat) / 100) / 1000000000

/-- w_i of R261 in mW. -/
def siteLoss (d : Shed) (ls : List Lit) (l : Lit) : Rat :=
  if l.booster then 0
  else (l.fs : Rat) * ((l.span.2 - l.span.1 : Nat) : Rat) / (d.perP : Rat) * pathLoss d ls l

/-- Table of R263 over one class: entries 1 to 16. -/
def lossTable (d : Shed) (ls : List Lit) (regulated : Bool) : List Nat :=
  let ws := (ls.filter fun l => l.regulated == regulated && l.g ≠ 0 && !l.booster).map fun l =>
    (siteLoss d ls l, (l.g : Rat) * (l.num : Rat) / (65535 * (l.den : Rat)))
  (List.range 16).map fun j =>
    (((ws.map fun (a : Rat × Rat) => a.1 * min 1 (a.2 * ((j + 1 : Nat) : Rat) / 16)).foldl (· + ·) 0).ceil).toNat

/-! Retest and capture pulses (08 R253; 07 R213). -/

/-- Period number of period `p` of frame `f`, counted from the mark `m`. -/
def periodsFrom (d : Shed) (m f : Word) (p : Nat) : Nat := (f - m).toNat * d.perN + p

/-- A dot correction of 0 leaves the channel without any pulse (03, R89). -/
def dotDark (d : Shed) (l : Lit) : Bool := dotOf d.front l.ch == 0

/-- Retest pulses of a site in frame `f`: period and length. -/
def retestPulses (d : Shed) (l : Lit) (f : Word) : List (Nat × Nat) :=
  match d.drive.retest with
  | some (fn, m) =>
    if saFnEn (siteAttr d.front l.site) && l.fn = fn && fnState d fn ≠ 0 && markAtOrAfter f m && !dotDark d l then
      ((List.range d.perN).filter fun p => periodsFrom d m f p < 16).map fun p =>
        (p, if l.booster then max 300 (minPulse d.cfg l.ch) else 300)
    else []
  | none => []

/-- Capture pulses of a site in frame `f`: period, length, code (07, R213). -/
def capturePulses (d : Shed) (l : Lit) (f : Word) : List (Nat × Nat × Nat) :=
  match d.drive.capture with
  | some c =>
    if (c.sites.any fun x => x.site == l.site) && markAtOrAfter f c.mark && !l.booster && !dotDark d l then
      ((List.range d.perN).filter fun p => periodsFrom d c.mark f p < 64).map fun p =>
        (p, min 2000 (l.span.2 - l.span.1), if periodsFrom d c.mark f p % 2 == 0 then c.acal else 7 * c.acal / 8)
    else []
  | none => []

/-- Spread count of the shed (04, R131). -/
def spreadCount (t : Table Word) : Nat := cf t R.dimCfg 24 19 + 1

/-- Pulses of a booster on-time `x` a period: one, or its sub-pulses in spread mode (03, R103, R104). -/
def boosterPulses (d : Shed) (l : Lit) (x : Nat) : Nat :=
  if x = 0 then 0
  else if d.drive.plan.spread.getD l.group false then max 1 (min (spreadCount d.cfg) (x / minPulse d.cfg l.ch)) else 1

/-- Fixed loss of R263 in mW: gate drive of boosters, capture pulses, retest pulses. `vbat` in mV. -/
def fixedLoss (d : Shed) (ls : List Lit) (f : Word) (vbat : Nat) : Nat :=
  let frame : Rat := (d.perP * d.perN : Nat)
  let pulse := fun (l : Lit) (len code : Nat) =>
    (l.fs : Rat) * (code : Rat) / 4095 * (len : Rat) / frame * pathLoss d ls l
  let one := fun (l : Lit) =>
    let re := retestPulses d l f
    let ca := capturePulses d l f
    if l.booster then
      let n := match boosterOf d.cfg l.ch with | some n => n | none => 0
      let minP := minPulse d.cfg l.ch
      let (a, duty) := splitProduct l.g l.num l.den
      let target := onTarget d.perN l duty
      -- the on-time that R120 gives from the residue as it stands
      let u := if a = 0 || target = 0 then 0 else (dither target (getSite d l.site).residue minP).1
      let ts := periodTimes d.perN minP l.ch u
      let k := sumN (ts.map (boosterPulses d l)) + re.length
      -- QG × 2 nC × VBAT per pulse over the frame time of P × N × 10 ns
      ((cf d.cfg (R.xcCfg + n) 15 10 * 2 * vbat * k : Nat) : Rat) / (frame * 10)
    else
      ((re.map fun a => pulse l a.2 l.full) ++ (ca.map fun a => pulse l a.2.1 a.2.2)).foldl (· + ·) 0
  (((ls.map one).foldl (· + ·) 0).ceil).toNat

/-- Upper bound of a table at a factor code (09, R264). Entry j stands at index j − 1. -/
def lossBound (t : List Nat) (g : Nat) : Nat :=
  let at_ := fun j => if j = 0 then 0 else t.getD (j - 1) 0
  let j := g / 256
  if j ≥ 16 || g % 256 = 0 then at_ (min j 16)
  else if j = 0 then at_ 1
  else min (at_ (j + 1)) (at_ j + ceilDiv ((at_ j - at_ (j - 1)) * (g - 256 * j)) 256)

/-- Largest factor code in lo..hi whose bound is within the budget; the bound does not fall as the code rises. -/
def largestFactor (t : List Nat) (budget lo hi : Nat) : Nat :=
  (List.range 13).foldl (fun (a : Nat × Nat) _ =>
    if a.1 ≥ a.2 then a
    else
      let m := (a.1 + a.2 + 1) / 2
      if lossBound t m ≤ budget then (m, a.2) else (a.1, m - 1)) (lo, hi) |>.1

/-- Decision of R264: Gs, Gr, SHORT. `a` is the allowance in mW. -/
def decideFactors (s r : List Nat) (b : Nat) (a : Int) (floorPct : Nat) : Nat × Nat × Bool :=
  let gf := 4096 * floorPct / 100
  if a < (b : Int) then (0, 0, true)
  else
    let x := (a - (b : Int)).toNat
    let rAll := lossBound r 4096
    if lossBound s 4096 + rAll ≤ x then (4096, 4096, false)
    else if lossBound s gf + rAll ≤ x then (largestFactor s (x - rAll) gf 4096, 4096, false)
    else if lossBound s gf ≤ x then (gf, largestFactor r (x - lossBound s gf) 0 4096, false)
    else (largestFactor s x 0 gf, 0, false)

/-! On-times of the frame (04 R120 to R122; 08 R239 to R242). -/

/-- Payback of a probe's debt in one period (08, R241). -/
def payOne (debt t : Nat) : Nat × Nat :=
  let cut := min debt t
  let cut := if 0 < t - cut && t - cut < 10 then t - 10 else cut
  (t - cut, debt - cut)

/-- Payback over the periods in order. -/
def payAll (debt : Nat) : List Nat → List Nat × Nat
  | [] => ([], debt)
  | t :: r =>
    let a := payOne debt t
    let b := payAll a.2 r
    (a.1 :: b.1, b.2)

/-- The other admitted members of a site's exclusivity block: whether the block is driven in spread mode now, and for each its shortest
pulse and its on-times. -/
structure Mates where
  spread : Bool
  others : List (Nat × List Nat)
  deriving DecidableEq, Repr

/-- Longest pulse or sub-pulse of an on-time `t` in period `p`, in the mode of the driven frame (08, R239, R482): a block's member is
split over the windows of its block (04, R140). -/
def longestPulse (d : Shed) (m : Option Mates) (l : Lit) (p t : Nat) : Nat :=
  let minP := minPulse d.cfg l.ch
  match m with
  | some m =>
    if m.spread then
      maxN (splitLens (blockWindows (spreadCount d.cfg) ((minP, t) :: m.others.map fun o => (o.1, o.2.getD p 0))) t)
    else t
  | none =>
    if d.drive.plan.spread.getD l.group true then
      maxN ((spreadPulses l.span.1 (l.span.2 - l.span.1) (spreadCount d.cfg) minP l.ch t).map (·.2))
    else t

/-- Probe decision of R239 in period `p` of frame `f`, and its payback within the frame (R241). In the periods `ban` a probe would shut a
member out of its block: it is deferred (R240). -/
def probeStep (d : Shed) (f : Word) (m : Option Mates) (ban : List Nat) (next : Nat) (x : Draft) (p : Nat) : Draft :=
  let l := x.lit
  let tp := x.on.getD p 0
  let i := probeInterval d.cfg l.regulated
  let now := d.drive.planned + p
  let litBefore := ((List.range (p + 1)).any fun q => x.plain.getD q 0 > 0 && p - q < i)
    || (match (getSite d l.site).lastOn with | some q => now < q + i | none => false)
  if cf d.cfg R.diagCfg 13 13 == 0 || l.booster || !litBefore then x
  else if longestPulse d m l p tp ≥ 300 then x
  else if x.debt > 0 || l.span.2 - l.span.1 < 300 then { x with deferred := x.deferred + 1 }
  else
    let h := sumN (x.on.drop (p + 1)) + next
    let make := fun (len code debt : Nat) (kind : PulseKind) =>
      if ban.contains p then { x with deferred := x.deferred + 1 }
      else
        let paid := payAll debt (x.on.drop (p + 1))
        { x with on := x.on.take p ++ [len] ++ paid.1, special := x.special ++ [(p, code, kind)], debt := paid.2
                 debtTo := f + 1, reduced := x.reduced + bit01 (decide (kind = .reduced)) }
    if tp ≥ 300 || h ≥ 300 - tp then make (max 300 tp) x.amp (300 - tp) .probe
    else
      let ar := x.amp / 8
      let q := ceilDiv (300 * ar) (max x.amp 1)
      if ar ≥ 16 && q ≥ tp && h ≥ q - tp then
        make 300 ar (q - tp) .reduced
      else { x with noProbe := x.noProbe + 1 }

/-- Probe periods of a channel in frame `f` (08, R238). -/
def probePeriods (d : Shed) (l : Lit) (f : Word) : List Nat :=
  (List.range d.perN).filter fun p =>
    ((f.toNat * d.perN + p) % 65536 + l.ch) % probeInterval d.cfg l.regulated == 0

/-- The on-times of one site in frame `f`, with retest and capture pulses in place of its own (04, R120 to R122; 08, R239
to R242, R253; 07, R213). `l0` lacks the governor factor, `l` has it. -/
def draftSite (d : Shed) (f : Word) (m : Option Mates) (ban : List Nat) (l : Lit) : Draft :=
  let s := getSite d l.site
  let (a, duty) := splitProduct l.g l.num l.den
  let target := onTarget d.perN l duty
  let minP := minPulse d.cfg l.ch
  let dark := a = 0 || target = 0
  let (t, res) := if dark then (0, 0) else dither target s.residue minP
  let times := periodTimes d.perN minP l.ch t
  let next := if dark then 0 else (dither target res minP).1
  -- debt of the last frame's probe
  let due := s.debt > 0 && s.debtTo == f
  let base : Draft :=
    { lit := l, amp := a, on := times, plain := times, special := [], debt := s.debt, debtTo := s.debtTo, residue := res,
      reduced := 0, noProbe := 0, unpaid := 0, deferred := 0 }
  let base := if s.debt > 0 && dark then
      { base with debt := 0, unpaid := 1 }
    else if due then
      let paid := payAll s.debt times
      { base with on := paid.1, plain := paid.1, debt := paid.2 }
    else base
  let x := (probePeriods d l f).foldl (probeStep d f m ban next) base
  -- capture and retest pulses at their own amplitude, without the governor
  let re := (retestPulses d l f).map fun r => (r.1, r.2, l.full, PulseKind.retest)
  let ca := (capturePulses d l f).map fun c => (c.1, c.2.1, c.2.2, PulseKind.capture)
  let extra := if ca.isEmpty then re else ca
  if extra.isEmpty then x
  else
    { x with
      on := (List.range d.perN).map fun p => match extra.find? fun o => o.1 == p with | some o => o.2.1 | none => x.on.getD p 0
      special := (x.special.filter fun o => !(extra.any fun v => v.1 == o.1)) ++ extra.map fun o => (o.1, o.2.2.1, o.2.2.2) }

/-- Largest code that the site carries in the frame. -/
def Draft.code (x : Draft) : Nat := maxN (x.amp :: x.special.map (·.2.1))

/-! Exclusivity (04, R138 to R140). -/

/-- Order of R139: REGULATED first, the later request, the higher priority, the lower site. -/
def exclBefore (d : Shed) (a b : Draft) : Bool :=
  let ra := (getSite d a.lit.site).reqAt
  let rb := (getSite d b.lit.site).reqAt
  if a.lit.regulated ≠ b.lit.regulated then a.lit.regulated
  else if ra ≠ rb then markAtOrAfter ra rb
  else if a.lit.prio ≠ b.lit.prio then a.lit.prio > b.lit.prio
  else a.lit.site < b.lit.site

def insertExcl (d : Shed) (x : Draft) : List Draft → List Draft
  | [] => [x]
  | y :: r => if exclBefore d y x then y :: insertExcl d x r else x :: y :: r

/-- The site carries on-time in the frame. -/
def Draft.lights (x : Draft) : Bool := x.on.any (· > 0)

/-- Shortest pulse and on-times of a draft. -/
def Draft.times (d : Shed) (x : Draft) : Nat × List Nat := (minPulse d.cfg x.lit.ch, x.on)

/-- Competing members of each exclusivity number and row, in admission order. -/
def exclSets (d : Shed) (xs : List Draft) : List (List Draft) :=
  let ms := xs.filter fun x => x.lit.excl ≠ 0 && x.lights
  let keys := (ms.map fun x => (x.lit.excl, x.lit.row)).eraseDups
  keys.map fun k => (ms.filter fun x => (x.lit.excl, x.lit.row) == k).foldr (insertExcl d) []

/-- Span of a block: the row slot's as soon as one member is a sink, whose pulses are bound to it (R124; log entry 190). -/
def blockSpan (ms : List Draft) : Nat × Nat :=
  match ms.find? fun x => !x.lit.booster with
  | some x => x.lit.span
  | none => match ms with | x :: _ => x.lit.span | [] => (0, 0)

/-- Spread count of a block in a period: 1 where a member carries a pulse of its own (R140; 08, R240). -/
def blockSpread (d : Shed) (ms : List Draft) (p : Nat) : Nat :=
  if ms.any fun x => x.special.any fun o => o.1 == p then 1 else spreadCount d.cfg

/-- The members fit together, in levelling mode or in every period in spread mode (R139). -/
def setFits (d : Shed) (spread : Bool) (ms : List Draft) : Bool :=
  let l := (blockSpan ms).2 - (blockSpan ms).1
  if spread then
    (List.range d.perN).all fun p =>
      blockFits l (blockSpread d ms p) (ms.map fun x => (minPulse d.cfg x.lit.ch, x.on.getD p 0))
  else sumN (ms.map fun x => maxN x.on) ≤ l

/-- Members admitted, in order (R139). -/
def admitted (d : Shed) (spread : Bool) (ms : List Draft) : List Draft :=
  ms.foldl (fun a x => if setFits d spread (a ++ [x]) then a ++ [x] else a) []

/-- A block is in spread mode when any of its members' groups is; the driven frame's modes. -/
def setSpread (d : Shed) (ms : List Draft) : Bool := ms.any fun x => d.drive.plan.spread.getD x.lit.group true

/-- Sites admitted of a set. -/
def whoFits (d : Shed) (spread : Bool) (ms : List Draft) : List Nat := (admitted d spread ms).map fun x => x.lit.site

/-- The set with the drafts of one member in place of the one it has. -/
def replaceIn (x : Draft) (ms : List Draft) : List Draft := ms.map fun y => if y.lit.site = x.lit.site then x else y

/-- The probes of one member, one after the other (08, R240): a probe is made when the same members are then admitted. -/
def probesOfOne (d : Shed) (f : Word) (spread : Bool) (x : Draft) (cur : List Draft) : List Draft :=
  let others := (admitted d spread cur).filter fun y => y.lit.site ≠ x.lit.site
  let mates : Mates := { spread := spread, others := others.map (Draft.times d) }
  let draft : List Nat → Draft := fun ban => draftSite d f (some mates) ban x.lit
  let ps := probePeriods d x.lit f
  let ban : List Nat := ps.foldl (fun (ban : List Nat) p =>
    let less := ban.filter (· ≠ p)
    if whoFits d spread (replaceIn (draft less) cur) = whoFits d spread (replaceIn (draft ban) cur) then less else ban) ps
  replaceIn (draft ban) cur

/-- The probes of a set's members, in admission order; the members come without probes. -/
def probesOfSet (d : Shed) (f : Word) (ms : List Draft) : List Draft :=
  ms.foldl (fun cur x => probesOfOne d f (setSpread d ms) x cur) ms

/-- The drafts of the lit sites: those of exclusivity sets get the probes that their block admits. -/
def draftAll (d : Shed) (f : Word) (ls : List Lit) : List Draft :=
  let bold := ls.map (draftSite d f none [])
  let plain := bold.map fun x => if x.lit.excl = 0 then x else draftSite d f none (probePeriods d x.lit f) x.lit
  let done := (exclSets d bold).flatMap fun ms =>
    probesOfSet d f (ms.map fun x => (plain.find? fun y => y.lit.site == x.lit.site).getD x)
  plain.map fun x => (done.find? fun y => y.lit.site == x.lit.site).getD x

/-! The two plans. -/

/-- Conditions that keep a group out of the placer: SCAN for the shed, FORCE for the group (04, Table 4.6). -/
def scanSpread (t : Table Word) : Bool := rowsOf t > 4
def forced (t : Table Word) (g : Nat) : Bool := (cw t R.dimCfg).bit (12 + g)
def placerRuns (t : Table Word) (g : Nat) : Bool := !scanSpread t && !forced t g

/-- Members of a set, with the set's order, as the parts of one item (R140). -/
def blockParts (t : Table Word) (ms : List Draft) : List Part :=
  (ms.foldl (fun (a : List Part × Nat) x =>
    let n := maxN x.on
    (a.1 ++ [{ site := x.lit.site, group := x.lit.group, row := x.lit.row,
               load := switchMode t x.lit.row == 1 && !x.lit.booster, cur := x.lit.fs * x.code, off := a.2, len := n }],
     a.2 + n)) ([], 0)).1

/-- Items of the levelling placer, with the members held off (R128, R139). -/
def levelItems (d : Shed) (xs : List Draft) : List PlaceItem × List Nat :=
  let lit := xs.filter Draft.lights
  let sets := exclSets d xs
  let item := fun (ms : List Draft) =>
    match ms with
    | [] => none
    | _ =>
      if ms.all fun x => placerRuns d.cfg x.lit.group then
        some { parts := blockParts d.cfg ms, len := sumN (ms.map fun x => maxN x.on), span := blockSpan ms : PlaceItem }
      else none
  let singles := (lit.filter fun x => x.lit.excl = 0).filterMap fun x => item [x]
  let blocks := sets.filterMap fun ms => item (admitted d false ms)
  let held := sets.flatMap fun ms => (ms.filter fun x => !((admitted d false ms).any fun y => y.lit.site == x.lit.site)).map (·.lit.site)
  (singles ++ blocks, held)

/-- Pulses of a site placed at `x` (R128, R140): the same start in every period that carries one. -/
def levelPulses (on : List Nat) (x : Nat) : List (Nat × Nat × Nat) :=
  ((List.range on.length).filter fun p => on.getD p 0 > 0).map fun p => (p, x, on.getD p 0)

/-- Spread plan: pulses of every site, and the members held off (R131, R134, R140). -/
def spreadPlan (d : Shed) (xs : List Draft) : List (Nat × List (Nat × Nat × Nat)) × List Nat :=
  let m := spreadCount d.cfg
  let single := fun (x : Draft) (p : Nat) => x.special.any fun o => o.1 == p
  let alone := (xs.filter fun x => x.lit.excl = 0).map fun x =>
    (x.lit.site, (List.range d.perN).flatMap fun p =>
      (spreadPulses x.lit.span.1 (x.lit.span.2 - x.lit.span.1) (if single x p then 1 else m) (minPulse d.cfg x.lit.ch)
        x.lit.ch (x.on.getD p 0)).map fun a => (p, a.1, a.2))
  let sets := exclSets d xs
  let block := fun (ms : List Draft) =>
    match ms with
    | [] => []
    | h :: _ =>
      ms.map fun x => (x.lit.site, (List.range d.perN).flatMap fun p =>
        let span := blockSpan ms
        let b := spreadBlock span.1 (span.2 - span.1) (blockSpread d ms p) h.lit.ch
          (ms.map fun y => (y.lit.site, minPulse d.cfg y.lit.ch, y.on.getD p 0))
        ((b.filter fun a => a.1 == x.lit.site).flatMap (·.2)).map fun a => (p, a.1, a.2))
  let held := sets.flatMap fun ms => (ms.filter fun x => !((admitted d true ms).any fun y => y.lit.site == x.lit.site)).map (·.lit.site)
  (alone ++ sets.flatMap fun ms => block (admitted d true ms), held)

/-- The scan switches in the frame (03, Table 3.6, R98; 04, R124). `lit` says whether a group has a channel with on-time. -/
def switchPlans (t : Table Word) (p : Nat) (lit : Nat → Bool) : List SwitchPlan :=
  (List.range 16).filterMap fun r =>
    let slot := rowSlot p (rowsOf t) r
    match switchMode t r with
    | 1 =>
      if r < rowsOf t then
        some { sw := r, on_ := slot.1, off := slot.2 - 10 * cf t R.dimCfg 31 25
               discharge := if (cw t R.scanAux).bit r then some slot.2 else none }
      else none
    | 2 => some { sw := r, on_ := 0, off := p, discharge := none }
    | 3 => if lit (switchGate t r) then some { sw := r, on_ := 0, off := p, discharge := none } else none
    | _ => none

end Sys2Proof.Machine
end

