-- ==== Sys2Proof/Machine/Serial.lean ====
section
/-! DEFINITION. SPI controller ports and the execute-in-place window (12): edges of a transfer, its ends, held frames, port resets,
line fetches. Times start at the acceptance of a transfer, with the least delays that R342 and R344 allow (log entry 20). -/

namespace Sys2Proof.Machine

open Sys2Proof

/-- Binding registers of a port and select (12, Tables 12.11, 12.12). -/
def timReg (p sel : Nat) : Nat := R.spimTim + 16 * p + 2 * sel
def fmtReg (p sel : Nat) : Nat := R.spimFmt + 16 * p + 2 * sel

def bindTim (s : State) (p sel : Nat) : Word := reg s yardDie (timReg p sel)
def bindFmt (s : State) (p sel : Nat) : Word := reg s yardDie (fmtReg p sel)

def fmtEn (w : Word) : Bool := w.bit 31
def fmtMode (w : Word) : Nat := w.fld 30 29
def fmtLsb (w : Word) : Bool := w.bit 28
def fmtLen (w : Word) : Nat := w.fld 27 23 + 1
def fmtUse (w : Word) : Nat := w.fld 22 21
def fmtPin (w : Word) : Nat := w.fld 19 16
def fmtHold (w : Word) : Nat := w.fld 15 8

/-- Half-clock of a binding, ns (R339). -/
def halfClock (tim : Word) : Nat := 5 * (tim.fld 31 24 + 1)

/-- Bytes of a word (R346). -/
def wordBytes (fmt : Word) : Nat := (fmtLen fmt + 7) / 8

/-- First clock edge of a transfer: after the lead, or in a continued frame after the gap (R342, R345). -/
def firstEdge (x : Xfer) : Nat :=
  x.start + (if x.lead then x.tim.fld 23 16 + 1 else x.tim.fld 7 0 + 1) * halfClock x.tim

/-- From the first edge of one word to the first edge of the next (R340, R342). -/
def wordStride (x : Xfer) : Nat := (2 * fmtLen x.fmt + x.tim.fld 7 0) * halfClock x.tim

/-- Last edge of the transfer. -/
def lastEdge (x : Xfer) : Nat :=
  firstEdge x + (x.words.length - 1) * wordStride x + (2 * fmtLen x.fmt - 1) * halfClock x.tim

/-- End of the transfer: the release of the select, or the last edge of a frame that is held (R342, R345). -/
def xferEnd (x : Xfer) : Nat := if x.hold then lastEdge x else lastEdge x + (x.tim.fld 15 8 + 1) * halfClock x.tim

/-- Sampling edges of word `w` that fall before `t` (R350): Mode 0 and 2 sample on the first edge, 1 and 3 on the second. -/
def sampledIn (x : Xfer) (t w : Nat) : Nat :=
  ((List.range (fmtLen x.fmt)).filter fun j =>
    firstEdge x + w * wordStride x + (2 * j + fmtMode x.fmt % 2) * halfClock x.tim < t).length

/-- Whole words and bits of the next received before `t`. -/
def sampled (x : Xfer) (t : Nat) : Nat × Nat :=
  let n := sumN ((List.range x.words.length).map (sampledIn x t))
  (n / fmtLen x.fmt, n % fmtLen x.fmt)

/-- A received word, right-aligned in LEN bits (R340). -/
def rxWord (x : Xfer) (w : Nat) : Nat := (x.miso.getD w 0).toNat % 2 ^ fmtLen x.fmt

/-- A partial word of `b` bits (R347). -/
def rxPart (x : Xfer) (w b : Nat) : Nat :=
  if fmtLsb x.fmt then rxWord x w % 2 ^ b else rxWord x w / 2 ^ (fmtLen x.fmt - b)

/-- Bytes received: whole words, then the partial one (R346 to R348). -/
def rxBytes (x : Xfer) (words bits : Nat) : List Byte :=
  (List.range words).flatMap (fun w => le (wordBytes x.fmt) (rxWord x w))
  ++ (if bits = 0 then [] else le (wordBytes x.fmt) (rxPart x words bits))

/-- The buffer of the window is emptied (R353). -/
def emptyLines (s : State) : State := { s with xip := { s.xip with lines := [] } }

/-- What every end of a transfer does: reply, page, port (R346 to R350). -/
def finishXfer (p words bits code : Nat) (x : Xfer) (s : State) : State :=
  let data := rxBytes x words bits
  let head := le 2 words ++ le 1 bits ++ le 1 code
  let s := match x.page with
    | some (pg, off) => returnPages x.sess [pg] (storePage pg off data s)
    | none => s
  let y := getSpim s p
  let held := x.hold && code = 0
  let s := setSpim p { y with
    xfer := none, frame := if held then some (x.sess, x.select, s.now) else none, idle := fmtMode x.fmt ≥ 2
    lastEnd := if code = 0 then s.now else s.now + halfClock x.tim
    aborts := if code = 0 then y.aborts else min 255 (y.aborts + 1) } s
  -- a copy of the window went on waiting meanwhile (R349, R353)
  let s := if p = 0 then
      let s := { s with xip := { s.xip with copy := s.xip.copy.map fun c => { c with start := c.start + (s.now - max x.start c.start) } } }
      if x.select = yf s R.xipCfg 30 28 then emptyLines s else s
    else s
  pushReply x.sess x.entry 0 0 (if x.page.isSome then head else head ++ data) s

/-- The last word is done (R350). -/
def xferDone (p : Nat) (s : State) : State :=
  match (getSpim s p).xfer with
  | none => s
  | some x => if s.now < xferEnd x then s else finishXfer p x.words.length 0 0 x s

/-- Abort of a running transfer with END `code` (R350). The record of a port reset is a shadow summary (15, Table 15.6). -/
def abortXfer (p code inc : Nat) (s : State) : State :=
  match (getSpim s p).xfer with
  | none => s
  | some x =>
    let (w, b) := sampled x s.now
    let s := if code = 1 then s else logX 0x0801 1 0 x.sess (8 * p + x.select) code inc s
    finishXfer p w b code { x with hold := false } s

/-- HOLD_MAX has passed since the frame's last transfer (R345). -/
def holdExpired (p : Nat) (s : State) : State :=
  let y := getSpim s p
  match y.frame, y.xfer with
  | some (n, sel, t), none =>
    if s.now < t + fmtHold (bindFmt s p sel) * ms then s
    else logX 0x0802 1 0 n (8 * p + sel) n 0
      (setSpim p { y with frame := none, lastEnd := s.now, timeouts := min 255 (y.timeouts + 1) } s)
  | _, _ => s

/-! Execute in place. -/

/-- Clocks of one line's read (R351). -/
def lineClocks (c : Word) : Nat :=
  let quad := c.fld 27 26 == 3
  let div := fun (n : Nat) => if quad then n / 4 else n
  8 + div (if c.bit 25 then 32 else 24) + (if c.bit 12 then div 8 else 0) + c.fld 24 21
    + (match c.fld 27 26 with | 0 => 256 | 1 => 128 | _ => 64)

/-- Time of one line with its select and deselect times (R342, R351). -/
def lineTime (s : State) : Nat :=
  let c := reg s yardDie R.xipCfg
  let t := bindTim s 0 (c.fld 30 28)
  let h := halfClock t
  (2 * lineClocks c - 1 + t.fld 23 16 + 1 + t.fld 15 8 + 1) * h + max (4 * h) 40

/-- Lines of the copy, in order. -/
def copyLines (c : Copy) : List Nat :=
  (List.range ((c.woff + c.data.length - 1) / 32 + 1 - c.woff / 32)).map (c.woff / 32 + ·)

/-- The copy's lines one by one up to time `t`: lines read, and the buffer. A line in the buffer takes no time (R353). -/
def runLines (lt : Nat) : List Nat → (n left : Nat) → (buf : List Nat) → Nat × Nat × List Nat
  | [], n, left, buf => (n, left, buf)
  | l :: r, n, left, buf =>
    if buf.contains l then runLines lt r (n + 1) left buf
    else if left < lt then (n, 0, buf)
    else runLines lt r (n + 1) (left - lt) ((l :: buf).take 4)

/-- Lines read so far, and the buffer. While a transfer runs on the port the copy stands still. -/
def copyProgress (s : State) (c : Copy) : Nat × Nat × List Nat :=
  let t := match (getSpim s 0).xfer with | some x => min x.start s.now | none => s.now
  runLines (lineTime s) (copyLines c) 0 (t - c.start) s.xip.lines

/-- Bytes that `n` lines of the copy give. -/
def copyBytes (c : Copy) (n : Nat) : Nat := min c.data.length (32 * (c.woff / 32 + n) - c.woff)

/-- The copy ends with `n` lines read (R354). -/
def endCopy (c : Copy) (n : Nat) (buf : List Nat) (s : State) : State :=
  let k := if n = 0 then 0 else copyBytes c n
  let s := returnPages c.sess [c.page] (storePage c.page c.poff (c.data.take k) s)
  let s := { s with xip := { copy := none, lines := buf } }
  pushReply c.sess c.entry 0 0 (le 2 k ++ zeros 2) s

/-- Every line has been read. -/
def copyDone (s : State) : State :=
  match s.xip.copy with
  | none => s
  | some c =>
    let (n, _, buf) := copyProgress s c
    if n < (copyLines c).length then s else endCopy c n buf s

/-- Instant at which a transfer accepted now on port `p` may begin: after the deselect time, and at the end of the line fetch in
progress (R342, R349). -/
def xferStart (s : State) (p : Nat) (tim : Word) : Nat :=
  let y := getSpim s p
  let t := max s.now (y.lastEnd + max (4 * halfClock tim) 40)
  match (if p = 0 then s.xip.copy else none) with
  | some c =>
    let lt := lineTime s
    let past := s.now - c.start
    max t (c.start + ceilDiv past lt * lt)
  | none => t

/-- Reset of port `p`: abort, frame, window buffer, status; bindings stay (R350, R354, R357). -/
def resetSpim (p inc : Nat) (warm : Bool) (s : State) : State :=
  let running := (getSpim s p).xfer.isSome
  let sel := match (getSpim s p).xfer with | some x => x.select | none => 0
  let s := abortXfer p 1 inc s
  let s := if running && !warm then addTrip (fun b => match b with | .spim q => q.val == p | _ => false)
      { code := 0x0801, p1 := 8 * p + sel, p2 := 1, die := 0, n := 1 } s
    else if running then logX 0x0801 1 0 255 (8 * p + sel) 1 inc s else s
  let s := if p = 0 then
      match s.xip.copy with
      | some c => let (n, _, _) := copyProgress s c; endCopy c n [] s
      | none => emptyLines s
    else s
  setSpim p { Spim.init with idle := fmtMode (bindFmt s p 0) ≥ 2, lastEnd := s.now } s

/-- SPIM_ST_p (Table 12.14). -/
def spimSt (s : State) (p : Nat) : Word :=
  let y := getSpim s p
  let sel := match y.xfer, y.frame with | some x, _ => x.select | none, some (_, q, _) => q | _, _ => 0
  let holder := match y.frame with | some (n, _, _) => n | none => 0
  BitVec.ofNat 32 (bit01 y.xfer.isSome * 2 ^ 31 + bit01 y.frame.isSome * 2 ^ 30 + holder * 2 ^ 26 + sel * 2 ^ 23
    + bit01 (p == 0 && s.xip.copy.isSome) * 2 ^ 22 + y.aborts * 256 + y.timeouts)

end Sys2Proof.Machine
end

