-- ==== Sys2Proof/Machine/CfgCheck.lean ====
section
/-! DEFINITION. Which configurations are refused (03 Table 3.9; 04 Table 4.7; 07 Table 7.12; 08 Table 8.12; 09 Table 9.7; 10 R310; 11
Table 11.10; 12 Table 12.10; 13 Table 13.12; 14 R383; 15 R433), over a register file as data: the registers that a write or a
stored copy would leave. -/

namespace Sys2Proof.Machine

open Sys2Proof

/-- A reserved field of a register's value is not zero (00, R15). -/
def valueRsvd (p : Nat × Word) : Bool :=
  match regRow p.1 with
  | some r => p.2.toNat &&& r.rsvd ≠ 0
  | none => false

/-- A register of a register file. -/
def rget (t : Table Word) (die n : Nat) : Word := (Table.find? t (regKey die n)).getD (regInit n)

/-- A field of a yard register. -/
def ry (t : Table Word) (n hi lo : Nat) : Nat := (rget t yardDie n).fld hi lo

/-- The registers of one shed, by number. -/
def shedPart (t : Table Word) (k : Nat) : Table Word :=
  (t.filter fun p => p.1 / 65536 == k).map fun p => (p.1 % 65536, p.2)

/-- Usable spans of a shed's rows are long enough (04, R125). -/
def spansOk (p rows blank : Nat) : Bool :=
  (List.range rows).all fun r => let s := rowSpan p rows (10 * blank) r; s.1 + 256 ≤ s.2

/-- Output-stage conditions of Table 3.9. -/
def badStage (t : Table Word) : Bool :=
  let n := rowsOf t
  let scan := (List.range 16).any fun r => (switchMode t r == 1) != (decide (2 ≤ n) && decide (r < n))
  let xs := (List.range 8).filter fun x => cf t (R.xcCfg + x) 31 31 == 1
  let chan := fun (x : Nat) => cf t (R.xcCfg + x) 30 24
  (List.range 4).any (fun g => rangeOf t g == 3 || cf t (R.sgCfg + g) 15 8 > 120
      || 10 * cf t (R.sgCfg + g) 15 8 < 100 * rangeOf t g || cf t (R.sgCfg + g) 7 4 == 0
      || cf t (R.trimCfg + g) 19 10 > cf t (R.trimCfg + g) 29 20)
  || (List.range 32).any (fun q => parOf t (4 * q) == 3)
  || scan || cf t R.scanAux 31 24 < 10 || cf t R.scanAux 31 24 > 120
  || xs.any (fun x => membersOf t (chan x) ≠ 1 || xs.any fun y => x ≠ y && chan x == chan y)

/-- Timing conditions of Table 4.7 for one shed. -/
def badTiming (period n : Nat) (t : Table Word) (blank : Nat) : Bool :=
  period < 15 || 256 * (period + 1) * n < 131072 || blank < 5 || blank > 80 || !spansOk (256 * (period + 1)) (rowsOf t) blank

/-- Lamp-temperature conditions of Table 7.12 for one shed. -/
def badLamp (t : Table Word) : Bool :=
  let ntc := fun (i : Nat) => cw t (R.ntcCfg + i)
  (List.range 4).any (fun i => (ntc i).bit 31 && ((ntc i).fld 30 16 == 0 || (ntc i).fld 15 0 < 1000 || (ntc i).fld 15 0 > 10000))
  || (List.range 128).any (fun c =>
      anodeOf t c == 3 || (anodeOf t c == 2 && rowsOf t ≤ 1)
      || (anodeOf t c ≠ 0 && ((boosterOf t c).isSome || commanderOf t c ≠ c))
      || (ntcEnOf t c && !(ntc (ntcOf t c)).bit 31))
  || cf t R.ltCfg 31 24 > 200 || cf t R.ltCfg 23 16 > 200 || cf t R.ltAux 31 24 > 200 || cf t R.ltCfg 11 6 == 0
  || (List.range 32).any (fun q => (cw t R.mixCfg).bit q
      && (parOf t (4 * q) ≠ 0 || (List.range 4).any fun j => (boosterOf t (4 * q + j)).isSome))

/-- Diagnostic conditions of Table 8.12 for one shed. -/
def badDiag (t : Table Word) : Bool :=
  let c := cw t R.diagCfg
  let out := fun (v lo hi : Nat) => v < lo || v > hi
  c.fld 31 28 == 0 || out (c.fld 27 24) 4 10 || out (c.fld 23 20) 4 10 || out (c.fld 19 14) 3 36
  || (List.range 4).any fun g => let v := cf t R.diagLs (8 * g + 7) (8 * g); (1 ≤ v && v ≤ 9) || v > 120

/-- Curve points below 8,192 (Table 7.12). -/
def badCurves (t : Table Word) : Bool :=
  (List.range 36).any fun j => ry t (R.curve + j) 14 0 < 8192 || ry t (R.curve + j) 30 16 < 8192

/-- Thermal and governor conditions of Table 9.7, but for the band tables. -/
def badThermal (t : Table Word) : Bool :=
  let hys := fun (v : Nat) => v < 2 || v > 20
  ry t R.govCtl 31 24 < 40 || ry t R.govCtl 31 24 > 240 || ry t R.govCtl 23 16 > 100
  || ry t R.thermCfg 31 24 ≥ ry t R.thermCfg 23 16 || ry t R.thermCfg 23 16 ≥ ry t R.thermCfg 15 8 || ry t R.thermCfg 15 8 > 200
  || hys (ry t R.thermHys 31 27) || hys (ry t R.thermHys 26 22) || hys (ry t R.thermHys 21 17)
  || ry t R.nvwCfg 31 24 ≥ ry t R.nvwCfg 23 16
  || (ry t R.thermCtl 27 27 == 1 && ry t R.thermCfg 31 24 ≥ ry t R.nvwCfg 23 16)
  || ry t R.bandBnd 31 24 + 6 > ry t R.bandBnd 23 16 || ry t R.bandBnd 23 16 + 6 > ry t R.bandBnd 15 8

/-- Session conditions of R310. -/
def badSession (t : Table Word) : Bool :=
  ry t R.sessCfg 31 24 == 0 || ry t R.sessCfg 23 16 == 0 || ry t R.sessCfg 15 0 < 10 || ry t R.sessCfg 15 0 > 6000
  || (List.range 5).any fun p => ry t R.sessPriv (2 * p + 1) (2 * p) ≥ 2

/-- Bit time of a timing register in cycles of the CAN clock (11, R327). -/
def canNominal (t : Table Word) (c : Nat) : Nat :=
  let r := R.canNbt + 8 * c
  (ry t r 31 24 + 1) * (ry t r 23 16 + ry t r 15 9 + 3)

def canData (t : Table Word) (c : Nat) : Nat :=
  let r := R.canDbt + 8 * c
  (ry t r 31 27 + 1) * (ry t r 26 22 + ry t r 21 18 + 3)

/-- Word `w` of map entry `i` of controller `c`. -/
def rmap (t : Table Word) (c i w : Nat) : Word := rget t yardDie (R.canMap + 256 * c + 4 * i + w)

/-- A valid map entry breaks Table 11.10, other than by naming a function twice. -/
def badEntry (t : Table Word) (c i : Nat) : Bool :=
  let w0 := rmap t c i 0
  let kind := (rmap t c i 2).fld 7 0
  let mask := if kind = 2 then 0x1FFFFFFF else (rmap t c i 1).fld 28 0
  let j := rget t yardDie (R.canJhp + 8 * c)
  let hits := j.bit 31 && j.bit 30 == w0.bit 29
    && (List.range 32).any fun o => (j.fld 28 0 + o) &&& mask == w0.fld 28 0 &&& mask
  w0.bit 31 && (kind > 2 || (kind = 1 && (rmap t c i 2).fld 20 16 ≥ 8) || (kind = 2 && (rmap t c i 3).fld 31 16 == 0) || hits)

/-- The functions of the valid VALUE entries of both maps. -/
def mapNames (t : Table Word) : List Nat :=
  (mapAll.filter fun p => (rmap t p.1 p.2 0).bit 31 && (rmap t p.1 p.2 2).fld 7 0 == 0).map fun p => (rmap t p.1 p.2 2).fld 31 24

/-- Conditions of Table 11.10. -/
def badNet (t : Table Word) : Bool :=
  let vid := fun (v : Nat) => v = 0 || v = 4095
  let names := mapNames t
  mapAll.any (fun p => badEntry t p.1 p.2)
  || names.eraseDups.length ≠ names.length
  || (List.range 2).any (fun c => canNominal t c < 40 || canData t c < 8 || canData t c > canNominal t c
      || ry t (R.canJhp + 8 * c) 4 0 ≠ 0
      || ry t (R.canJhp + 8 * c) 28 0 + 31 > (if ry t (R.canJhp + 8 * c) 30 30 = 1 then 2 ^ 29 - 1 else 2047))
  || ry t R.netCfg 28 24 == 0 || ry t R.netCfg 7 4 == 0
  || (List.range 3).any (fun p => vid (ry t (R.swPort + p) 31 20))
  || (List.range 16).any (fun i => ry t (R.swVlan + i) 16 16 = 1 && vid (ry t (R.swVlan + i) 31 20))
  || (List.range 64).any (fun i => ry t (R.fwdEntry + 2 * i) 0 0 = 1 && vid (ry t (R.fwdEntry + 2 * i) 15 4))
  || ry t R.ipMisc 31 26 < 8 || ry t R.ipMisc 31 26 > 30 || ry t R.ipMisc 13 7 < 5 || ry t R.ipMisc 13 7 > 100
  || ry t R.udpPorts 31 16 == ry t R.udpPorts 15 0

/-- A binding breaks Table 12.10, but for a pin that another binding uses. -/
def badBinding (sel : Nat) (tim fmt : Word) : Bool :=
  tim.fld 31 24 == 0 || fmt.fld 27 23 < 3 || fmtUse fmt == 0 || fmtUse fmt == 3
  || (sel < 4 && (fmtPin fmt ≠ 0 || fmtHold fmt ≠ 0)) || (sel ≥ 4 && fmtEn fmt && fmtHold fmt == 0)

/-- Every port and select. -/
def bindings : List (Nat × Nat) := (List.range 3).flatMap fun p => (List.range 8).map fun q => (p, q)

/-- GP pins that enabled privileged bindings name. -/
def gpPins (t : Table Word) : List Nat :=
  (bindings.filter fun b => b.2 ≥ 4 && fmtEn (rget t yardDie (fmtReg b.1 b.2))).map fun b => fmtPin (rget t yardDie (fmtReg b.1 b.2))

/-- Conditions of Table 12.10. -/
def badSerial (t : Table Word) : Bool :=
  let x := rget t yardDie R.xipCfg
  let f := rget t yardDie (fmtReg 0 (x.fld 30 28 % 8))
  let pins := gpPins t
  bindings.any (fun b => badBinding b.2 (rget t yardDie (timReg b.1 b.2)) (rget t yardDie (fmtReg b.1 b.2)))
  || pins.eraseDups.length ≠ pins.length
  || x.fld 30 28 ≥ 4
  || (x.bit 31 && (!fmtEn f || fmtMode f == 1 || fmtMode f == 2))
  || (!x.bit 25 && ry t R.xipBank 1 0 ≠ 0)

/-- Pin map entries and conditions of Table 13.12. -/
def rpin (t : Table Word) (n : Nat) : Nat := ry t (R.pkPinmap + n / 2) (16 * (n % 2) + 15) (16 * (n % 2))

def badPins (t : Table Word) : Bool :=
  let on := ((List.range 24).map (rpin t)).filter pinEn
  let keys := on.map fun w => (pinLane w, pinLpin w)
  keys.eraseDups.length ≠ keys.length || (List.range 24).any fun n => pinPull (rpin t n) == 3

/-- LOG_RATE entry `i` refuses (14, R383). -/
def badRate (i burst : Nat) : Bool := burst == 0 && codeSev (256 * (i / 32) + i % 32) ≥ 1

def badRates (t : Table Word) : Bool :=
  (List.range 128).any fun j => badRate (2 * j) (ry t (R.logRate + j) 15 8) || badRate (2 * j + 1) (ry t (R.logRate + j) 31 24)

/-- Conditions of R433. -/
def badFault (t : Table Word) : Bool :=
  ry t R.faultCfg 31 28 == 1 || ry t R.faultCfg 27 16 < 10 || ry t R.faultCfg 15 8 == 0

/-- A shed's registers, with the frame configuration and the band tables, break a rule. -/
def badShed (t : Table Word) (k : Nat) : Bool :=
  let d := shedPart t k
  badStage d || badLamp d || badDiag d
  || badTiming (ry t R.frameCfg 31 24) (ry t R.frameCfg 21 16 + 1) d (cf d R.dimCfg 31 25)
  || (List.range 4).any fun b =>
      badTiming (ry t (R.bandTab + b) 31 24) (ry t R.frameCfg 21 16 + 1) d (ry t (R.bandTab + b) 15 9)

/-- A yard register that chapters check across registers, by its number: the part of the register file that a write of it needs
checked. -/
def badYard (t : Table Word) : Bool :=
  badThermal t || badSession t || badNet t || badSerial t || badPins t || badRates t || badFault t || badCurves t

/-- The whole configuration of a package with `n` sheds is refused. -/
def badConfig (n : Nat) (t : Table Word) : Bool := badYard t || (List.range n).any (badShed t)

end Sys2Proof.Machine
end

