-- ==== Sys2Proof/Machine/Crypto.lean ====
section
/-! DEFINITION. The crypto engine's functions, by the standards that 10 (R283, R284) and 16 (R434, R439, R448) name: SHA-256 (FIPS
180-4), HMAC-SHA-256 (FIPS 198-1) and the verification of an ECDSA signature on P-256 (FIPS 186-4). PRESUMED (log entry 24): the spec
names the functions and does not restate the standards. -/

namespace Sys2Proof.Machine

open Sys2Proof

/-! SHA-256. -/

/-- The largest `r` below `2 ^ n` over `acc` with `r ^ e ≤ x`, bit by bit from the top. -/
def rootFrom (e x : Nat) : (n acc : Nat) → Nat
  | 0, acc => acc
  | n + 1, acc => rootFrom e x n (if (acc + 2 ^ n) ^ e ≤ x then acc + 2 ^ n else acc)

/-- First 32 bits of the fractional part of the `e`-th root of `p`, for `e` 2 or 3 and `p` below 512 (FIPS 180-4, 4.2.2 and 5.3.3). -/
def rootBits (e p : Nat) : Nat := rootFrom e (p * 2 ^ (32 * e)) 37 0 % 2 ^ 32

/-- The primes below 361, which trial division by the primes below 19 finds; the sixty-fourth is 311. -/
def smallPrimes (n : Nat) : List Nat :=
  ((List.range 312).filter fun k => k ≥ 2 && [2, 3, 5, 7, 11, 13, 17].all fun d => k == d || k % d ≠ 0).take n

/-- Round constants: from the cube roots of the first sixty-four primes. -/
def shaK : List Nat := (smallPrimes 64).map (rootBits 3)

/-- Initial hash value: from the square roots of the first eight primes. -/
def shaInit : List Nat := (smallPrimes 8).map (rootBits 2)

def rotr (n x : Nat) : Nat := (x >>> n ||| x <<< (32 - n)) % 2 ^ 32

/-- Message schedule: `w` holds the last sixteen words, newest first; `n` more rounds. -/
def shaRounds (ks w : List Nat) (h : List Nat) : List Nat :=
  match ks with
  | [] => h
  | k :: r =>
    let w0 := w.getD 15 0
    match h with
    | [a, b, c, d, e, f, g, x] =>
      let s1 := rotr 6 e ^^^ rotr 11 e ^^^ rotr 25 e
      let ch := (e &&& f) ^^^ ((2 ^ 32 - 1 - e) &&& g)
      let t1 := (x + s1 + ch + k + w0) % 2 ^ 32
      let s0 := rotr 2 a ^^^ rotr 13 a ^^^ rotr 22 a
      let maj := (a &&& b) ^^^ (a &&& c) ^^^ (b &&& c)
      let t2 := (s0 + maj) % 2 ^ 32
      let w1 := w.getD 14 0
      let w14 := w.getD 1 0
      let n := (w0 + (rotr 7 w1 ^^^ rotr 18 w1 ^^^ (w1 >>> 3)) + w.getD 6 0 + (rotr 17 w14 ^^^ rotr 19 w14 ^^^ (w14 >>> 10))) % 2 ^ 32
      shaRounds r (n :: w.take 15) [(t1 + t2) % 2 ^ 32, a, b, c, (d + t1) % 2 ^ 32, e, f, g]
    | _ => h

/-- One block of 64 bytes. -/
def shaBlock (h : List Nat) (b : List Byte) : List Nat :=
  let w := (List.range 16).map fun i => ofBe (slice b (4 * i) 4)
  (h.zip (shaRounds shaK w.reverse h)).map fun p => (p.1 + p.2) % 2 ^ 32

/-- Blocks of 64 bytes, `n` of them. -/
def shaBlocks (n : Nat) (h : List Nat) (m : List Byte) : List Nat :=
  match n with
  | 0 => h
  | k + 1 => shaBlocks k (shaBlock h (m.take 64)) (m.drop 64)

/-- A number as `n` bytes, most significant first. -/
def be (n v : Nat) : List Byte := (le n v).reverse

/-- SHA-256 of a message. -/
def sha256 (m : List Byte) : List Byte :=
  let len := m.length
  let pad := (119 - len % 64) % 64
  let full := m ++ [0x80] ++ zeros pad ++ be 8 (8 * len)
  (shaBlocks (full.length / 64) shaInit full).flatMap (be 4)

/-- HMAC-SHA-256. -/
def hmac (key m : List Byte) : List Byte :=
  let k := padTo 64 (if key.length > 64 then sha256 key else key)
  let inner := sha256 (k.map (· ^^^ 0x36) ++ m)
  sha256 (k.map (· ^^^ 0x5C) ++ inner)

/-! ECDSA on P-256. Points in Jacobian coordinates; Z = 0 is the point at infinity. -/

def ecP : Nat := 0xffffffff00000001000000000000000000000000ffffffffffffffffffffffff
def ecN : Nat := 0xffffffff00000000ffffffffffffffffbce6faada7179e84f3b9cac2fc632551
def ecB : Nat := 0x5ac635d8aa3a93e7b3ebbd55769886bc651d06b0cc53b0f63bce3c3e27d2604b
def ecG : Nat × Nat × Nat :=
  (0x6b17d1f2e12c4247f8bce6e563a440f277037d812deb33a0f4a13945d898c296,
   0x4fe342e2fe1a7f9b8ee7eb4a7c0f9e162bce33576b315ececbb6406837bf51f5, 1)

def subP (a b : Nat) : Nat := (a + ecP - b % ecP) % ecP

/-- Double of a point (a = −3). -/
def ecDouble (p : Nat × Nat × Nat) : Nat × Nat × Nat :=
  let (x, y, z) := p
  if z = 0 || y = 0 then (1, 1, 0)
  else
    let yy := y * y % ecP
    let s := 4 * x * yy % ecP
    let z2 := z * z % ecP
    let m := 3 * subP x z2 * (x + z2) % ecP
    let x' := subP (m * m % ecP) (2 * s)
    (x', subP (m * subP s x' % ecP) (8 * yy * yy % ecP), 2 * y * z % ecP)

/-- Sum of two points. -/
def ecAdd (p q : Nat × Nat × Nat) : Nat × Nat × Nat :=
  let (x1, y1, z1) := p
  let (x2, y2, z2) := q
  if z1 = 0 then q else if z2 = 0 then p
  else
    let z1z1 := z1 * z1 % ecP
    let z2z2 := z2 * z2 % ecP
    let u1 := x1 * z2z2 % ecP
    let u2 := x2 * z1z1 % ecP
    let s1 := y1 * z2 % ecP * z2z2 % ecP
    let s2 := y2 * z1 % ecP * z1z1 % ecP
    if u1 = u2 then (if s1 = s2 then ecDouble p else (1, 1, 0))
    else
      let h := subP u2 u1
      let r := subP s2 s1
      let hh := h * h % ecP
      let hhh := hh * h % ecP
      let v := u1 * hh % ecP
      let x3 := subP (subP (r * r % ecP) hhh) (2 * v)
      (x3, subP (r * subP v x3 % ecP) (s1 * hhh % ecP), z1 * z2 % ecP * h % ecP)

/-- `k` times a point, from the top bit of `n` bits. -/
def ecMul (n k : Nat) (q : Nat × Nat × Nat) (acc : Nat × Nat × Nat) : Nat × Nat × Nat :=
  match n with
  | 0 => acc
  | m + 1 =>
    let d := ecDouble acc
    ecMul m k q (if k.testBit m then ecAdd d q else d)

/-- Power modulo `m`, over `n` bits of the exponent. -/
def powMod (n b e m acc : Nat) : Nat :=
  match n with
  | 0 => acc
  | k + 1 => let a := acc * acc % m; powMod k b e m (if e.testBit k then a * b % m else a)

/-- Inverse modulo a prime. -/
def invMod (a m : Nat) : Nat := powMod 256 (a % m) (m - 2) m 1

/-- The public key is a point of the curve. -/
def ecOnCurve (x y : Nat) : Bool := x < ecP && y < ecP && y * y % ecP == (x * x % ecP * x + (ecP - 3) * x + ecB) % ecP

/-- The signature (r, s), 64 bytes, verifies over the message hash under the public key, 64 bytes. -/
def ecdsaVerify (pub sig hash : List Byte) : Bool :=
  let x := ofBe (pub.take 32)
  let y := ofBe (slice pub 32 32)
  let r := ofBe (sig.take 32)
  let v := ofBe (slice sig 32 32)
  if !ecOnCurve x y || r = 0 || v = 0 || r ≥ ecN || v ≥ ecN then false
  else
    let w := invMod v ecN
    let u1 := ofBe hash * w % ecN
    let u2 := r * w % ecN
    let (px, _, pz) := ecAdd (ecMul 256 u1 ecG (1, 1, 0)) (ecMul 256 u2 (x, y, 1) (1, 1, 0))
    if pz = 0 then false
    else
      let zi := invMod pz ecP
      px * (zi * zi % ecP) % ecP % ecN == r

end Sys2Proof.Machine
end

