-- ==== Sys2Proof/Machine/Copies.lean ====
section
/-! DEFINITION. The copies of the items in the MRAM stores (16, R434), and the calibration records of a shed (07, Table 7.7). Item numbers:
0 the Stable scene, 1 to 16 the value scenes, 17 the register configuration, 18 and 19 the Paddock programs, 20 the identity record,
21 the key store, 22 + k the lamp calibration of shed k. -/

namespace Sys2Proof.Machine

open Sys2Proof

def N.stable : Nat := 0
def N.regs : Nat := 17
def N.pk (e : Nat) : Nat := 18 + e
def N.ident : Nat := 20
def N.keys : Nat := 21
def N.cal (k : Nat) : Nat := 22 + k

def getItem (s : State) (i : Nat) : NvItem := Table.get NvItem.init s.store.items i

/-- A valid copy (R434). -/
def validCopy (c : Option NvCopy) : Option NvCopy := c.filter fun x => x.ok && x.count ≠ 0

/-- The valid copies, the newer first, each with its number 0 or 1 (R434). -/
def NvItem.copies (x : NvItem) : List (Nat × NvCopy) :=
  match validCopy x.a, validCopy x.b with
  | some a, some b => if seqBefore a.count b.count then [(1, b), (0, a)] else [(0, a), (1, b)]
  | some a, none => [(0, a)]
  | none, some b => [(1, b)]
  | none, none => []

/-- Body of the newer valid copy. -/
def newest (s : State) (i : Nat) : Option (List Byte) := ((getItem s i).copies.head?).map (·.2.body)

/-- Copies of an item of which one is accepted, the newer first. -/
def pickCopy (s : State) (i : Nat) (ok : List Byte → Bool) : Option (Nat × List Byte) :=
  ((getItem s i).copies.find? fun c => ok c.2.body).map fun c => (c.1, c.2.body)

/-- The stored calibration of shed `k`. -/
def calBody (s : State) (k : Nat) : List Byte := (newest s (N.cal k)).getD []

/-- Words of 64 bits that bytes spell, least significant byte first. -/
def words64 : List Byte → List DWord
  | a :: b :: c :: d :: e :: f :: g :: h :: r => BitVec.ofNat 64 (ofLe [a, b, c, d, e, f, g, h]) :: words64 r
  | _ => []

/-- Calibration words for shed `k`: those that it does not yet hold, and those of the sites `l`, whose records have just been written. The
firmware writes them (07, R207). -/
def calWords (s : State) (k : Nat) (l : List Nat) : List (Nat × DWord) :=
  if !s.power.fw then []
  else
    let d := getShed s k
    (((words64 (calBody s k)).zipIdx.filter fun p => p.1 ≠ (getSite d p.2).cal || l.contains p.2).map fun p => (A.cal + p.2, p.1))


end Sys2Proof.Machine
end

