-- ==== Sys2Proof/Machine/Reload.lean ====
section
/-! DEFINITION. What the yard writes to a shed beside rounds (01, R33; 02, R78; 03, R114; 05, R156): its configuration with the
band's fields (09, R274), and the reload of a shed that comes back. WRITEs outside a round wait while one runs. -/

namespace Sys2Proof.Machine

open Sys2Proof

/-- Band in force (09, Table 9.14). -/
def band (s : State) : Nat := yf s R.thermSt 11 10

/-- Band timing is enabled (09, Table 9.11). -/
def bandOn (s : State) : Bool := tf s R.thermCtl 26 26 == 1

/-- A configuration word with the fields that a band puts in its place (09, R274, Table 9.13). -/
def bandField (t : Word) (n : Nat) (w : Word) : Word :=
  if n = R.shedCfg then w.withFld 27 26 (t.fld 17 16)
  else if n = R.dimCfg then (w.withFld 31 25 (t.fld 15 9)).withFld 24 19 (t.fld 23 18)
  else if n = R.frameCfg then w.withFld 31 24 (t.fld 31 24)
  else w

/-- The word of register `n` that shed `k` works with. -/
def effReg (s : State) (k n : Nat) : Word :=
  let w := reg s (if n < 0x1000 then yardDie else k) n
  if bandOn s then bandField (thermReg s (R.bandTab + band s)) n w else w

/-- Registers that make a shed's configuration: FRAME_CFG, the curves, and its own RW registers. -/
def shedConfig : List Nat :=
  R.frameCfg :: (List.range 36).map (R.curve + ·) ++ shedNumbers.filter fun n => match regRow n with
    | some r => r.rw ≠ 0
    | none => false

/-- Registers of which a shed holds a copy: its configuration, and GOV_CTL, whose FLOOR its local share needs (01, R41). -/
def shedCopies : List Nat := R.govCtl :: shedConfig

/-- From the first WRITE of a round to its apply mark or abort no other WRITE is sent (05, R156). -/
def writesHeld (s : State) : Bool :=
  s.scene.round.isSome || (match s.scene.applyMark with | some m => !markAtOrAfter s.marks.count m | none => false)

/-- WRITEs to shed `k` outside rounds, at once or when the round has ended. -/
def sendWrites (k : Nat) (ws : List (Nat × DWord)) (s : State) : State :=
  if writesHeld s then { s with scene := { s.scene with heldWrites := s.scene.heldWrites ++ ws.map fun w => (k, w.1, w.2) } }
  else writeWords k ws s

/-- A register as the word that carries it. -/
def regWord (w : Word) : DWord := BitVec.ofNat 64 w.toNat

/-- Address of the named change of P and N: FRAME_CFG in bits 31:0, the mark in bits 63:32 (04, R118; log entry 6). -/
def A.change : Nat := 0x3E000

/-- A function's state and the mark from which it holds (08, R249; log entry 6). -/
def fnWord (st : Nat) (m : Word) : DWord := BitVec.ofNat 64 (st + m.toNat * 2 ^ 32)

/-- FRAME_CFG with a P and an N in their places (04, R116). -/
def frameWord (w : Word) (p n : Nat) : Word := (w.withFld 31 24 (p / 256 - 1)).withFld 21 16 (n - 1)

/-- The word of register `n` that shed `k` works with now: P and N are those in force until their named mark (04, R118). -/
def nowReg (s : State) (k n : Nat) : Word :=
  if n = R.frameCfg then frameWord (effReg s k n) s.marks.perP s.marks.perN else effReg s k n

/-- The named change of P and N, where one waits. -/
def changeWords (s : State) : List (Nat × DWord) :=
  match s.marks.change with
  | some (m, p, n) => [(A.change, BitVec.ofNat 64 ((frameWord (effReg s 0 R.frameCfg) p n).toNat + m.toNat * 2 ^ 32))]
  | none => []

/-- The words of a reload (02, R78): scene, programs, configuration, calibration, function states, and the word that ends it. -/
def reloadWords (s : State) (k : Nat) : List (Nat × DWord) :=
  let d := Table.get Shed.init s.sheds k
  let cfg := (shedCopies.filter fun n => (Table.find? d.cfgIn n).getD (regInit n) ≠ nowReg s k n).map fun n =>
    (A.cfg + n, regWord (nowReg s k n))
  let fns := ((List.range 256).filter fun f => (getFn s f).st ≠ Table.get 0 d.drive.failed f).map fun f =>
    (A.fnState + f, fnWord (getFn s f).st s.marks.count)
  diffWords d.back (applied s k) ++ cfg ++ changeWords s ++ calWords s k [] ++ fns ++ [(A.done, 1)]

/-- The engines of shed `k` go with its reload: their state now, from its checkpoints and the controls since, and the controls that wait. A
yard without checkpoints sends those alone (06, R193, R195). -/
def sendEngines (k : Nat) (s : State) : State :=
  let cs := (s.pat.since.filter fun p => p.1 / 16 == k).map (·.2)
  let at_ := Table.get 0 s.pat.checkAt k
  if at_ = 0 then forAll cs (fun c s => command k (.patCtl c) s) s
  else
    toShed k (.writeEngines (restoreEngines (applied s k) s.pat.eras (BitVec.ofNat 32 (at_ - 1)) s.marks.count
      (fun e => Table.find? s.pat.checks (16 * k + e)) cs)) s

/-- The yard reloads shed `k`, or will when the running round has ended. -/
def reloadShed (k : Nat) (s : State) : State :=
  if writesHeld s then { s with scene := { s.scene with reloads := s.scene.reloads.filter (· ≠ k) ++ [k] } }
  else writeWords k (reloadWords s k) (sendEngines k s)

/-- What waited for the end of the round is sent. -/
def flushWrites (s : State) : State :=
  if writesHeld s then s
  else
    let ws := s.scene.heldWrites
    let ks := s.scene.reloads
    let s := { s with scene := { s.scene with heldWrites := [], reloads := [] } }
    let s := forAll (List.range 7) (fun k s =>
      writeWords k ((ws.filter fun w => w.1 == k && !ks.contains k).map fun w => w.2) s) s
    forAll ks (fun k s => if (getShed s k).resync && (getLink s k).trained then reloadShed k s else s) s

end Sys2Proof.Machine
end

