-- ==== Sys2Proof/Machine/Abandon.lean ====
section
/-! DEFINITION. Captures and retests that end early (07, R214, R215; 08, R254, R255), and the FALLBACK broadcast that ends them
(15, R412). -/

namespace Sys2Proof.Machine

open Sys2Proof

/-- Result of one site and point (R214), with the status that the yard found at the capture's mark. -/
def capPoint (acal own : Nat) (c : CapSite) : CalPoint :=
  let st := if own ≠ 0 then own else c.status
  { sumA := c.sumA, nA := c.nA, sumB := c.sumB, nB := c.nB, tbSum := c.tbSum, tbN := c.tbN, acal := acal,
    fs := c.fs, kept := st = 0, status := st }

/-- The yard holds the results of a capture that has ended (R214, R215): those its shed has reported, else every site is ABORTED. A capture
whose mark was still to be named is answered with the mode error. -/
def endCapture (s : State) : State :=
  match s.lt.capture with
  | none => s
  | some y =>
    let own := fun (i : Nat) => ((y.sites.find? fun x => x.site == i).map (·.status)).getD 0
    let cs : List (Nat × CalPoint) := match s.lt.arrived with
      | some c => c.sites.map fun x => (x.site, capPoint y.acal (own x.site) x)
      | none => y.sites.map fun x => (x.site, capPoint y.acal 10 x)
    let pts := cs.foldl (fun t x => Table.put CalPoint.init t (2 * (2048 * y.shed + x.1) + y.point) x.2) s.lt.points
    let s := { s with lt := { s.lt with capture := none, arrived := none, points := pts, held := true } }
    if y.named then s else pushReply y.sess y.entry 0x0E 6 [] s

/-- A running capture of shed `k` ends at once (R215). -/
def stopCapture (k : Nat) (s : State) : State :=
  match s.lt.capture with
  | some y => if y.shed = k then endCapture s else s
  | none => s

/-- The yard sends the state of a function to every shed it can reach, to hold from mark `m` (08, R249). -/
def sendFnState (f st : Nat) (m : Word) (s : State) : State :=
  forAll ((present s).filter fun k => (getLink s k).trained) (fun k s => sendWrites k [(A.fnState + f, fnWord st m)] s) s

/-- Payload of FN_CLEAR's reply (17, Table 17.3). -/
def clearReply (f site mr : Nat) : List Byte := le 1 f ++ zeros 1 ++ le 2 site ++ le 4 mr

/-- A retest is abandoned with a reply code: the function stays FAILED_OFF (08, R255). -/
def abandonRetest (code detail : Nat) (s : State) : State :=
  match s.therm.retest with
  | none => s
  | some r =>
    let s := { s with therm := { s.therm with retest := none } }
    let s := updFn r.fn (fun x => { x with st := 1 }) s
    let s := if r.named then sendFnState r.fn 1 s.marks.count s else s
    pushReply r.sess r.entry code detail (clearReply r.fn 0xFFFF r.mark.toNat) s

/-- A retest of a function with sites in shed `k` is abandoned (08, R255). -/
def abandonRetestIn (k : Nat) (s : State) : State :=
  match s.therm.retest with
  | some r => if (sitesOf (applied s k) r.fn).isEmpty then s else abandonRetest 0x10 0 s
  | none => s

/-- FALLBACK to every shed that can be reached (15, R412): a capture and a retest end, since their sheds show the fallback image (07, R215;
08, R255). -/
def broadcastFallback (s : State) : State :=
  let s := forAll (reachable s) (fun k s => abandonRetestIn k (stopCapture k s)) s
  commandAll .fallback { s with scene := { s.scene with safeWanted := false } }
where
  reachable (s : State) : List Nat := (present s).filter fun k => (getLink s k).trained

end Sys2Proof.Machine
end

