-- ==== Sys2Proof/Machine/CommitOps.lean ====
section
/-! DEFINITION. The two-phase commit (05, R153 to R164): how a round starts, proceeds, applies and is aborted. -/

namespace Sys2Proof.Machine

open Sys2Proof

/-- Mark interval in nanoseconds (01, R26). -/
def interval (s : State) : Nat := s.marks.perP * s.marks.perN * greyClock

/-- Instant of the next mark. -/
def nextMarkAt (s : State) : Nat := s.marks.at_ + interval s

/-- Frame count of the first mark that falls at `t` or later (and is not past). -/
def markFrom (s : State) (t : Nat) : Word :=
  let n := nextMarkAt s
  let j := if t ≤ n then 0 else ceilDiv (t - n) (max (interval s) 1)
  s.marks.count + BitVec.ofNat 32 (1 + j)

/-- The first mark at least `d` ns from now. -/
def markIn (s : State) (d : Nat) : Word := markFrom s (s.now + d)

/-- Expected instant of mark `m`. -/
def markTime (s : State) (m : Word) : Nat := s.marks.at_ + (m - s.marks.count).toNat * interval s

/-- The apply mark of R158. -/
def applyMarkOf (s : State) (cs : List Commit) : Word :=
  cs.foldl (fun m c => match c.atFrame with
    | some a => if markAtOrAfter m a then m else a
    | none => m) (markIn s (200 * us))

/-- Shed `k` shows the applied scene: it is not resynchronising nor showing its fallback image (R155). -/
def shedServing (s : State) (k : Nat) : Bool :=
  let d := getShed s k
  (decide (d.mode = .joined) || decide (d.mode = .safe)) && !d.resync && (getLink s k).trained

/-- Edits that give every site of function `f` one value (R149; 11, R333). -/
def fnValueEdits (s : State) (f v : Nat) : List Edit :=
  (present s).flatMap fun k => (sitesOf (applied s k) f).map fun i => .value (2048 * k + i) v

/-- Edits that give every site of function `f` its value in the stored Stable scene. -/
def fnStableEdits (s : State) (stable : Table Img) (f : Nat) : List Edit :=
  (present s).flatMap fun k =>
    (sitesOf (applied s k) f).map fun i => .value (2048 * k + i) (frameValue (Table.get [] stable k) i)

/-- Edits of a lapse (R149): HOLD, VALUE or STABLE. -/
def lapseEdits (s : State) (stable : Table Img) (f : Nat) : List Edit :=
  match fnLapse (fnMap s) f with
  | 1 => fnValueEdits s f (fnLapseValue (fnMap s) f)
  | 2 => fnStableEdits s stable f
  | _ => []

/-- The scene words of an image, without programs (15, R412). -/
def sceneWords (m : Img) : Img := m.filter fun p => p.1 < A.prog
def progWords (m : Img) : Img := m.filter fun p => A.prog ≤ p.1

def mapImgs (l : List Nat) (f : Nat → Img) : Table Img :=
  l.foldl (fun t k => Table.put [] t k (f k)) []

/-- PREPARE goes to every shed of the round once every WRITE is acknowledged (R156); the second PREPARE to a shed whose
words were written again (R157). -/
def roundProgress (s : State) : State :=
  match s.scene.round with
  | none => s
  | some r =>
    if !(s.power.fw || r.boot || r.safe) then s
    else if r.prepared.isEmpty then
      if r.sheds.any (writesPending s) then s
      else
        let s := forAll r.sheds (fun k s => toShed k (.prepare r.id) s) s
        { s with scene := { s.scene with round := some { r with prepared := r.sheds, preparedAt := s.now } } }
    else
      match r.redo.filter fun k => !writesPending s k with
      | [] => s
      | ks =>
        let s := forAll ks (fun k s => toShed k (.prepare r.id) s) s
        { s with scene := { s.scene with
          round := some { r with redo := r.redo.filter (fun k => !ks.contains k), preparedAt := s.now } } }

/-- Global engines that a commit loads (06). -/
def loadedEngines (cs : List Commit) : List Nat :=
  cs.flatMap fun c => match c.kind with | .pattern es _ => es | _ => []

/-- WRITEs of a round to shed `k`: the words of its buffers that differ (R156), and outside the buffers which of its engines the round
loads, since a load resets an engine whose program stays as it was, too (06, R199; log entry 211). -/
def roundWords (old new : Img) (engines : List Nat) (k : Nat) : List (Nat × DWord) :=
  let es := (engines.filter fun g => g / 16 == k).map (· % 16)
  diffWords old new ++ (if es.isEmpty then [] else [(A.loads, BitVec.ofNat 64 (sumN (es.eraseDups.map (2 ^ ·))))])

/-- A round starts: its identifier, the sheds that are not away, the changed words and their WRITEs (R155, R156). -/
def startRound (cs : List Commit) (lapses : List Nat) (values : List (Nat × Nat)) (edits : List Edit) (after : Table Img)
    (safe restore boot : Bool) (s : State) : State :=
  let id := seqNext s.scene.lastId
  let sheds := (present s).filter fun k => boot || shedServing s k
  let words := sheds.map fun k => (k, roundWords (if boot then (getShed s k).back else applied s k) (Table.get [] after k) (if boot then [] else loadedEngines cs) k)
  let r : Round :=
    { id := id, commits := cs, lapses := lapses, values := values, edits := edits, after := after, sheds := sheds,
      away := sheds.length < (present s).length, words := words, prepared := [], ok := [], second := [],
      preparedAt := s.now, safe := safe, restore := restore, boot := boot, redo := [] }
  let s := { s with scene := { s.scene with lastId := id, round := some r } }
  let s := forAll words (fun w s => writeWords w.1 w.2 s) s
  roundProgress s

/-- Code, payload of the reply that acknowledges a commit (17, Table 17.2). -/
def commitReply (c : Commit) (m : Word) : List Byte :=
  match c.kind with
  | .pattern _ _ => le 4 m.toNat
  | _ => le 4 c.frameId ++ le 4 m.toNat

/-- Opcode of a commit's command. -/
def commitOpcode (c : Commit) : Nat :=
  match c.kind with
  | .pattern _ _ => 0x0301
  | .recall => 0x0202
  | _ => 0x0201

/-- Every shed has confirmed: COMMIT with the apply mark, COMMIT_LOG, the replies, the pages, and the applied state of the
yard (R158, R162, R164; 17, Table 17.8). -/
def sendCommit (r : Round) (m : Word) (s : State) : State :=
  let s := forAll r.sheds (fun k s => command k (.commit r.id m) s) s
  let s := setReg yardDie R.commitLogLo (BitVec.ofNat 32 r.id) (setReg yardDie R.commitLogHi m s)
  let before := s.scene.applied
  let s := { s with scene := { s.scene with
    round := none, applied := r.after, applyMark := some m, applyAt := markTime s m
    replaced := if r.safe then some (s.scene.replaced.getD before) else if r.restore then none else s.scene.replaced
    safeWanted := if r.safe then false else s.scene.safeWanted
    safeTries := if r.safe then 0 else s.scene.safeTries
    restoreDue := if r.restore then false else s.scene.restoreDue
    -- a shed that is away takes the round when it rejoins: a reload made before is made again (R155)
    reloads := (present s).filter fun k => !r.sheds.contains k } }
  let s := forAll r.commits (fun c s =>
    let s := returnPages c.sess c.pages s
    let s := match c.kind with
      | .pattern es trig =>
        let s := logX 0x0302 0 0 c.sess es.length m.toNat 0 s
        let p := match s.pat.trigPend with
          | some (_, es', old) => (m, es' ++ es, trig.orElse fun _ => old)
          | none => (m, es, trig)
        { s with pat := { s.pat with trigPend := some p } }
      | _ => s
    pushReply c.sess c.entry 0 (match c.kind with | .pattern _ _ => 0 | _ => bit01 r.away) (commitReply c m) s) s
  s

/-- The round is aborted with a reply code: ABORT to its sheds, replies, pages, and what joins the next round (R149, R159,
R162, R164). -/
def abortRound (code detail inc : Nat) (s : State) : State :=
  match s.scene.round with
  | none => s
  | some r =>
    let s := forAll r.sheds (fun k s => command k .abort s) s
    let s := { s with scene := { s.scene with round := none } }
    let s := forAll r.commits (fun c s =>
      let s := returnPages c.sess c.pages s
      let s := logX 0x0201 1 0 c.sess c.frameId code inc s
      pushReply c.sess c.entry code detail [] s) s
    let free := r.lapses.filter fun f => decide ((getFn s f).holder = .none) || (getFn s f).lapsed
    let s := { s with scene := { s.scene with
      heldLapses := free ++ s.scene.heldLapses.filter fun f => !free.contains f
      heldValues := r.values.foldl (fun t p => if (Table.find? t p.1).isSome then t else Table.put 0 t p.1 (p.2 + 1))
        s.scene.heldValues
      safeTries := if r.safe then s.scene.safeTries + 1 else s.scene.safeTries
      restoreDue := s.scene.restoreDue || r.restore } }
    if r.safe && s.scene.safeTries ≥ 2 then
      flushWrites (broadcastFallback s)
    else flushWrites s

/-- PREPARE_OK of shed `k` (R158). The loader's round names its boot mark (02, R52). -/
def prepareOkFrom (k id : Nat) (s : State) : State :=
  match s.scene.round with
  | none => s
  | some r =>
    if r.id ≠ id || !r.sheds.contains k || !(s.power.fw || r.boot || r.safe) then s
    else
      let r := { r with ok := if r.ok.contains k then r.ok else r.ok ++ [k] }
      if r.sheds.all r.ok.contains then
        let m := applyMarkOf s r.commits
        let s := sendCommit r m s
        if r.boot then { s with marks := { s.marks with mb := some m } } else s
      else { s with scene := { s.scene with round := some r } }

/-- PREPARE_FAIL of shed `k` (R157; 02, R57): its words again and a second PREPARE, then the abort. -/
def prepareFailFrom (k id : Nat) (s : State) : State :=
  match s.scene.round with
  | none => s
  | some r =>
    if r.id ≠ id || !r.sheds.contains k then s
    else if r.second.contains k then
      let s := { s with scene := { s.scene with
        loadFails := if r.boot then s.scene.loadFails ++ [k] else s.scene.loadFails } }
      let s := abortRound 0x12 0 0 s
      if r.boot then { s with power := { s.power with loadFailed := true } } else s
    else
      let s := { s with scene := { s.scene with
        round := some { r with second := r.second ++ [k], redo := r.redo ++ [k] } } }
      let ws := ((r.words.find? fun p => p.1 == k).map (·.2)).getD []
      roundProgress (writeWords k ws s)

end Sys2Proof.Machine
end

