-- ==== Sys2Proof/Machine/PlanOps.lean ====
section
/-! DEFINITION. The planning of a frame as a shed carries it out (04): the placement start point, the end of the placer run,
its deadline, the modes of the groups (R132 to R136), exclusivity reports and contention (R141 to R144). -/

namespace Sys2Proof.Machine

open Sys2Proof

/-- Frame length of a shed in nanoseconds (01, R28). -/
def shedInterval (d : Shed) : Nat := d.perP * d.perN * greyClock

/-- The shed with the period and frame length of the frame it plans (04, R118; 02, R52). -/
def planView (d : Shed) : Shed :=
  match d.change with
  | some (m, p, n) => if m = d.frame + 1 then { d with perP := p, perN := n } else d
  | none => d

/-- Gs and Gr for the planned frame, the use of the local share, and whether it lowered them (01, R41; 09, R266). -/
def localFactors (s : State) (k : Nat) (d : Shed) (f : Word) : Nat × Nat × Bool :=
  let ls := lits d
  let st := lossTable d ls false
  let rg := lossTable d ls true
  let b := fixedLoss d ls f d.warm.vbat
  let gs := if d.drive.govern then d.drive.gs else 4096
  let gr := if d.drive.govern then d.drive.gr else 4096
  let share := regf s k R.govShedSt 31 16
  if b + lossBound st gs + lossBound rg gr ≤ share then (gs, gr, false)
  else
    let x := decideFactors st rg b share (cf d.cfgIn R.govCtl 23 16)
    (min gs x.1, min gr x.2.1, true)

/-- The newest estimates whose round began 2.1 ms ago or earlier are in force from this frame (07, R211). -/
def takeEstimates (now : Nat) (d : Shed) : Shed :=
  match (d.warm.tl.filter fun e => e.1 + 2100 * us ≤ now).getLast? with
  | none => d
  | some e =>
    { d with sites := mapSites (fun i x => { x with used := Table.get 0 e.2.2 i }) d.sites
             warm := { d.warm with tl := d.warm.tl.filter (fun x => now < x.1 + 2100 * us), base := e.2.1 } }

/-- New lamp temperatures and due derate codes are taken (07, R211, R223; 01, R42). -/
def freshInputs (now : Nat) (f : Word) (d : Shed) : Shed :=
  let d := takeEstimates now d
  let due := d.drive.deratePend.filter fun p => markAtOrAfter f p.1
  { d with drive := { d.drive with
      derate := due.foldl (fun t p => p.2.foldl (fun t c => Table.put 0 t c.1 (16384 - c.2)) t) d.drive.derate
      deratePend := d.drive.deratePend.filter fun p => !markAtOrAfter f p.1 } }

/-- The request age of each lamp (04, R139). A site that no function lights is dark. -/
def markRequests (d : Shed) : Shed :=
  let lit := blendedAll d
  let d := { d with sites := mapSites (fun i x => if lit.any fun a => a.1 == i then x else { x with lastG := 0 }) d.sites }
  lit.foldl (fun d a =>
    updSite a.1 (fun x => { x with lastG := a.2, reqAt := if x.lastG = 0 && a.2 ≠ 0 then d.frame else x.reqAt }) d) d

/-- Sites that the frame does not light carry no residue and no debt (04, R121; 08, R242); the number of debts dropped. -/
def dropDark (xs : List Draft) (d : Shed) : Shed × Nat :=
  let dark := fun (i : Nat) => !(xs.any fun x => x.lit.site == i)
  ({ d with sites := mapSites (fun i x => if dark i then { x with residue := 0, debt := 0 } else x) d.sites },
   (d.sites.filter fun p => dark p.1 && p.2.debt > 0).length)

/-- What the drafts leave in the sites: residue, debt, last on-time (04, R120; 08, R239, R241). -/
def keepDrafts (xs : List Draft) (d : Shed) : Shed :=
  let d' := xs.foldl (fun d x =>
    let last := ((List.range d.perN).filter fun p => x.on.getD p 0 > 0).getLast?
    updSite x.lit.site (fun y => { y with
      residue := x.residue, debt := x.debt, debtTo := x.debtTo
      lastOn := match last with | some p => some (d.drive.planned + p) | none => y.lastOn }) d) d
  { d' with drive := { d'.drive with planned := d'.drive.planned + d'.perN } }

/-- Debts past their frame are dropped (08, R242). -/
def dropDebts (d : Shed) : Shed × Nat :=
  let due := (d.sites.filter fun p => p.2.debt > 0 && !markAtOrAfter p.2.debtTo d.frame).map (·.1)
  (due.foldl (fun d i => updSite i (fun x => { x with debt := 0 }) d) d, due.length)

/-- The placement start point (04, R126): the drafts of the coming frame are made. A decision of the governor that has not come by then is
late (01, R41; log entry 192). -/
def placementStart (k : Nat) (s : State) : State :=
  let d := getShed s k
  let f := d.frame + 1
  let old := (d.perP, d.perN)
  -- the factors have not come: the local share decides, and the late decision is counted (01, R41)
  let late := !d.drive.govern
  let (d, dropped) := dropDebts d
  let d := planView (markRequests (freshInputs s.now f d))
  let (gs, gr, lowered) := localFactors s k d f
  let base := lits d
  let xs := draftAll d f (withGovernor d gs gr base)
  let (d, dark) := dropDark xs d
  let dropped := dropped + dark
  let d := keepDrafts xs d
  let p : Placing := { items := xs, started := s.now, finished := false, late := false, fault := false, toLevel := [] }
  let s := setShed k { d with perP := old.1, perN := old.2, drive := { d.drive with placing := some p, govern := false, late := late } } s
  let s := if !late then s else if shedShadow s k then shedTrip k 7 k s else bumpReg k R.govShedSt 7 0 s
  let s := if !lowered then s else if shedShadow s k then shedTrip k 7 k s else bumpReg k R.govShedSt 15 8 s
  let s := addReg k R.diagSt 31 25 (sumN (xs.map (·.reduced))) s
  let s := addReg k R.diagSt 24 18 (sumN (xs.map (·.noProbe))) s
  let s := addReg k R.diagSt 17 12 (dropped + sumN (xs.map (·.unpaid))) s
  addReg k R.diagSt 11 8 (sumN (xs.map (·.deferred))) s

/-- A site's pulses in the final plan, before contention. -/
def sitePlan (pulses : List (Nat × Nat × Nat)) (x : Draft) : SitePlan :=
  { site := x.lit.site, amp := x.amp, ampOut := x.amp, on := x.on, pulses := pulses, special := x.special }

/-- Row loads see every pulse of the frame (04, R137, R141). -/
def rowSites (t : Table Word) (xs : List (Draft × SitePlan)) : List RowSite :=
  (xs.filter fun a => !a.1.lit.booster && !a.2.pulses.isEmpty && switchMode t a.1.lit.row == 1).map fun a =>
    { row := a.1.lit.row, regulated := a.1.lit.regulated, cur := a.1.lit.fs * a.1.code
      pulses := (a.2.pulses.map fun p => (p.2.1, p.2.2)).eraseDups }

/-- Contention and the governor leave retest and capture pulses as they are (07, R213; 08, R253). -/
def PulseKind.exempt : PulseKind → Bool
  | .retest | .capture => true
  | .probe | .reduced => false

/-- A styling site's codes under a contention factor (04, R141). -/
def scaleSite (n m : Nat) (x : SitePlan) : SitePlan :=
  { x with ampOut := x.amp * n / m
           special := x.special.map fun o => (o.1, if o.2.2.exempt then o.2.1 else o.2.1 * n / m, o.2.2) }

/-- Largest row load over the bins, in µA / 4,095. -/
def rowPeak (w : Nat) (ps : List RowSite) (row : Nat) : Nat :=
  maxN ((List.range 64).map fun k => rowLoad w ps row true k + rowLoad w ps row false k)

/-- Current of a code list in 10 mA units, of a number in µA / 4,095. -/
def tenMilli (x : Nat) : Nat := x / (4095 * 10000)

/-- Contention of the finished positions (04, R141 to R144): the sites' codes, the rows' FACTOR and PEAK, the reports. A row's regulated
load over its budget is reported in the first frame in which it is (log entry 191). -/
def contend (k : Nat) (d : Shed) (xs : List (Draft × SitePlan)) (s : State) :
    List (Draft × SitePlan) × List (Nat × Nat × Nat) × State :=
  let w := d.perP / 64
  let budget := budgetOf d.cfg * 4095
  let ps := rowSites d.cfg xs
  let rows := (List.range 16).filter fun r => switchMode d.cfg r == 1
  rows.foldl (fun a r =>
    let (xs, out, s) := a
    let was := d.drive.plan.overRows.contains r
    let s := match regOver w budget ps r with
      | some m =>
        let s := setRegf k (R.contSt + r) 19 19 1 s
        if was then s else shedEvent k (.rowRegOver r (tenMilli m)) s
      | none => s
    match rowFactor w budget ps r with
    | none => (xs, out ++ [(r, 4095, min 255 (tenMilli (rowPeak w ps r)))], s)
    | some (n, m) =>
      let xs := xs.map fun x => if x.1.lit.row = r && !x.1.lit.booster && !x.1.lit.regulated then (x.1, scaleSite n m x.2) else x
      let after := (ps.filter (·.regulated)) ++ rowSites d.cfg ((xs.filter fun x => !x.1.lit.regulated).map fun x =>
        ({ x.1 with amp := x.2.ampOut, special := x.2.special }, x.2))
      let code := 4095 * n / m
      let before := d.drive.plan.rows.any fun o => o.1 == r && o.2.1 < 4095
      let s := bumpReg k (R.contSt + r) 15 8 s
      let s := if before then s else shedEvent k (.rowScaled r code) s
      (xs, out ++ [(r, code, min 255 (tenMilli (rowPeak w after r)))], s)) (xs, [], s)

/-- REASON bits of a group (04, Table 4.6). -/
def reasonBits (t : Table Word) (g peak : Nat) (fault late : Bool) : Nat :=
  let ceil := cf t R.grpCeil (8 * g + 7) (8 * g)
  bit01 (scanSpread t) * 16 + bit01 (ceil ≠ 0 && peak > ceil * 20000 * 4095) * 8 + bit01 fault * 4 + bit01 late * 2
    + bit01 (forced t g)

/-- Report of a mode change (04, R135). -/
def reportMode (k g : Nat) (spread : Bool) (reason : Nat) (s : State) : State :=
  shedEvent k (.mode g spread reason) (bumpReg k (R.dimSt + g) 21 14 s)

/-- Mode of group `g` in the planned frame (04, R132 to R136): whether it is spread, and the state. -/
def decideMode (k g reason : Nat) (s : State) : Bool × State :=
  let d := getShed s k
  let was := d.drive.plan.spread.getD g true
  let dim := R.dimSt + g
  if d.drive.forceSpread then (true, setRegf k dim 25 22 0 s)
  else if reason ≠ 0 then
    let s := setRegf k dim 25 22 0 s
    (true, if was then s else reportMode k g true reason s)
  else
    let clean := min 8 (regf s k dim 25 22 + 1)
    let s := setRegf k dim 25 22 clean s
    if !was then (false, s)
    else if d.drive.noWait.contains g then
      (false, reportMode k g false 0 (updShed k (fun d => { d with drive := { d.drive with
        noWait := d.drive.noWait.filter (· ≠ g) } }) s))
    else if clean ≥ 8 then
      (false, updShed k (fun d => { d with drive := { d.drive with
        placing := d.drive.placing.map fun p => { p with toLevel := p.toLevel ++ [g] } } }) s)
    else (true, s)

/-- Modes of the four groups. -/
def decideModes (k : Nat) (reasons : List Nat) (s : State) : List Bool × State :=
  (List.range 4).foldl (fun (a : List Bool × State) g =>
    let r := decideMode k g (reasons.getD g 0) a.2
    (a.1 ++ [r.1], r.2)) ([], s)

/-- Reports of members newly held off (04, R144). -/
def reportHeld (k : Nat) (xs : List Draft) (held : List Nat) (s : State) : State :=
  forAll (xs.filter fun x => x.lit.excl ≠ 0) (fun x s =>
    let was := (getSite (getShed s k) x.lit.site).held
    let now := held.contains x.lit.site
    let first := ((xs.filter fun y => y.lit.excl == x.lit.excl && y.lit.row == x.lit.row && !held.contains y.lit.site
      && y.lights).map (·.lit.site)).headD 0
    let s := updShed k (updSite x.lit.site fun y => { y with held := now }) s
    if now then
      let s := setRegf k (R.contSt + x.lit.row) 18 18 1 s
      if was then s else shedEvent k (.exclHeld x.lit.site first) s
    else s) s

/-- The plan of the coming frame, from the placement (none when the placer is late) and the spread plan. -/
def finishPlan (k : Nat) (placed : List (PlaceItem × Nat)) (heldLevel : List Nat) (peaks : List Nat) (fault late : Bool)
    (s : State) : State :=
  let d := planView (getShed s k)
  let xs := (d.drive.placing.map (·.items)).getD []
  let reasons := (List.range 4).map fun g => reasonBits d.cfg g (peaks.getD g 0) fault late
  let (spread, s) := decideModes k reasons s
  let sp := spreadPlan d xs
  -- a block is in spread mode when any of its members' groups is
  let inSpread := fun (x : Draft) =>
    if x.lit.excl = 0 then spread.getD x.lit.group true
    else xs.any fun y => y.lit.excl == x.lit.excl && y.lit.row == x.lit.row && y.lights && spread.getD y.lit.group true
  let pulses := fun (x : Draft) =>
    if inSpread x then ((sp.1.find? fun a => a.1 == x.lit.site).map (·.2)).getD []
    else
      match placed.findSome? fun a => (a.1.parts.find? fun p => p.site == x.lit.site).map fun p => a.2 + p.off with
      | some st => levelPulses x.on st
      | none => []
  let held := (xs.filter fun x => if inSpread x then sp.2.contains x.lit.site else heldLevel.contains x.lit.site).map (·.lit.site)
  let s := reportHeld k xs held s
  let (ys, rows, s) := contend k d (xs.map fun x => (x, sitePlan (pulses x) x)) s
  let overRows := (List.range 16).filter fun r =>
    switchMode d.cfg r == 1 && (regOver (d.perP / 64) (budgetOf d.cfg * 4095) (rowSites d.cfg ys) r).isSome
  let lit := fun (g : Nat) => ys.any fun y => y.1.lit.group == g && !y.1.lit.booster && !y.2.pulses.isEmpty
  let plan : Plan := { sites := ys.map (·.2), switches := switchPlans d.cfg d.perP lit, spread := spread, reasons := reasons
                       rows := rows, overRows := overRows }
  updShed k (fun d => { d with drive := { d.drive with next := some plan } }) s

/-- The placer's run over the items of the coming frame (04, R128), with the members held off. -/
def placerRun (k : Nat) (p : Placing) (s : State) : (List (PlaceItem × Nat) × Profiles) × List Nat :=
  let d := planView (getShed s k)
  let (items, held) := levelItems d p.items
  (placeAll (d.perP / 64) (budgetOf d.cfg * 4095) items, held)

/-- The plan that a placer run gives (04, R128 to R131), with the bin peaks of the groups it ran for; `ok` is the self-check of R130. -/
def placePlan (k : Nat) (p : Placing) (ok : Bool) (s : State) : State :=
  let d := planView (getShed s k)
  let ((placed, prof), held) := placerRun k p s
  let peaks := (List.range 4).map fun g => maxN ((List.range 64).map fun b => Table.get 0 prof.peak (64 * g + b))
  let s := forAll ((List.range 4).filter fun g => placerRuns d.cfg g)
    (fun g s => setRegf k (R.dimSt + g) 7 0 (min 255 (peaks.getD g 0 / (20000 * 4095))) s) s
  finishPlan k placed held peaks (!ok) false s

/-- The result of a run's self-check: counted and reported when it failed (04, R130; 15, PLACER_CHECK). -/
def selfCheck (k : Nat) (ok : Bool) (s : State) : State :=
  let s := updShed k (fun d => { d with drive := { d.drive with checked := if ok then min 8 (d.drive.checked + 1) else 0 } }) s
  if ok then s else shedEvent k (.fault 0x0D) (bumpReg k R.placeSt 13 6 s)

/-- The placer run completes (04, R127 to R130; 15, PLACER_CHECK). -/
def placerEnd (k dur : Nat) (parityOk : Bool) (s : State) : State :=
  let d := getShed s k
  match d.drive.placing with
  | none => s
  | some p =>
    if p.finished then s
    else
      let ok := parityOk && placedRight (placerRun k p s).1
      let s := setRegf k R.placeSt 31 22 (min dur 1023) s
      let s := selfCheck k ok (updShed k (fun d => { d with drive := { d.drive with
        placing := some { p with finished := true, fault := !ok } } }) s)
      if p.late then s else placePlan k p ok s

/-- The placer has not finished at its deadline: the spread plan is driven (04, R127, R134). -/
def placerLate (k : Nat) (s : State) : State :=
  let d := getShed s k
  match d.drive.placing with
  | none => s
  | some p =>
    if p.finished || p.late then s
    else
      let s := updShed k (fun d => { d with drive := { d.drive with placing := some { p with late := true } } }) s
      finishPlan k [] [] [] false true (bumpReg k R.placeSt 21 14 s)

/-- A group returns to levelling after eight clean frames: the report of R135. -/
def returnLevel (k g : Nat) (s : State) : State :=
  let d := getShed s k
  match d.drive.placing with
  | none => s
  | some p =>
    if p.toLevel.contains g then
      reportMode k g false 0 (updShed k (fun d => { d with drive := { d.drive with
        placing := some { p with toLevel := p.toLevel.filter (· ≠ g) } } }) s)
    else s

/-- The coming frame has its plan when its mark falls, whatever has not been done (R134). -/
def ensurePlan (k : Nat) (s : State) : State :=
  let s := if (getShed s k).drive.placing.isNone then placementStart k s else s
  let s := if (getShed s k).drive.next.isNone then placerLate k s else s
  forAll (List.range 4) (returnLevel k) s

/-- A plan for the running frame made on the spot, with the configuration of that frame: the fallback image when it is first shown, and
the frame of a rejoin (02, R78; 03, R114; 05, R168). -/
def planNow (k : Nat) (s : State) : State :=
  let f := (getShed s k).frame
  let cfg := (getShed s k).cfg
  let s := updShed k (fun d => { d with frame := f - 1, cfg := d.cfgDrv, drive := { d.drive with
    placing := none, next := none, planned := d.drive.planned - d.perN } }) s
  let s := placementStart k s
  let s := match (getShed s k).drive.placing with
    | some p =>
      let ok := placedRight (placerRun k p s).1
      placePlan k p ok (selfCheck k ok s)
    | none => s
  updShed k (fun d => { d with frame := f, cfg := cfg, drive := { d.drive with
    plan := d.drive.next.getD d.drive.plan, next := none, placing := none } }) s

end Sys2Proof.Machine
end

