-- ==== Sys2Proof/Machine/Diag.lean ====
section
/-! DEFINITION. The end of a PWM period in a shed: the headroom loops (03, R110, R111), forward-voltage and capture samples (07,
R207, R213), raw observations and their classes (08, R226 to R230, R235, R237), and the verdicts formed from them (08, R231 to
R236, R248). -/

namespace Sys2Proof.Machine

open Sys2Proof

def getSwitch (d : Shed) (r : Nat) : OutUnit := Table.get OutUnit.init d.switches r
def setSwitch (r : Nat) (x : OutUnit) (d : Shed) : Shed := { d with switches := Table.put OutUnit.init d.switches r x }
def getBooster (d : Shed) (n : Nat) : OutUnit := Table.get OutUnit.init d.boosters n
def setBooster (n : Nat) (x : OutUnit) (d : Shed) : Shed := { d with boosters := Table.put OutUnit.init d.boosters n x }

/-- Site of the commanding channel of site `i` in the driven configuration. -/
def leadSite (d : Shed) (i : Nat) : Nat := 128 * rowOf i + commanderOf d.cfgDrv (chOf i)

/-- The driven plan's site. -/
def planSite (d : Shed) (i : Nat) : Option SitePlan := d.drive.plan.sites.find? fun x => x.site == i

/-- The plan has a pulse for the site in the running period. -/
def pulsesNow (d : Shed) (i : Nat) : Bool :=
  match planSite d i with
  | some x => x.pulses.any fun p => p.1 == d.drive.period
  | none => false

/-- Clocks since the running period began. -/
def clockNow (now : Nat) (d : Shed) : Nat := (now - d.markAt) / greyClock - d.drive.period * d.perP

/-- Switch `r` in the driven frame, while the outputs are driven. -/
def switchPlan (d : Shed) (r : Nat) : Option SwitchPlan :=
  if d.drive.off then none else d.drive.plan.switches.find? fun x => x.sw == r

/-- Switch `r` is on `x` grey clocks into the period: commanded on, and not tripped (03, R97; 04, R124). -/
def switchOn (d : Shed) (r x : Nat) : Bool :=
  match switchPlan d r with
  | some p => p.on_ ≤ x && x < p.off && !(getSwitch d r).tripped
  | none => false

/-- The row discharge current is drawn from the ball of switch `r` `x` grey clocks into the period (03, R98). -/
def rowDischarge (d : Shed) (r x : Nat) : Bool :=
  match switchPlan d r with
  | some p => (match p.discharge with | some e => p.off ≤ x && x < e | none => false)
  | none => false

/-- Observations that a pulse of the plan accounts for (log entry 2). -/
def ownPulses (d : Shed) (obs : PeriodObs) : List PulseObs :=
  obs.pulses.filter fun o => o.ch < 128 && o.row < 16 && pulsesNow d (leadSite d (128 * o.row + o.ch))

/-- The row's switch tripped in this period (03, R97). -/
def rowTripped (d : Shed) (r : Nat) : Bool := rowsOf d.cfgDrv > 1 && (getSwitch d r).tripped

/-- The row's switch is SW_OPEN or SW_OVERCURRENT (08, R236). -/
def rowBlocked (d : Shed) (r : Nat) : Bool :=
  switchMode d.cfgDrv r == 1 && ((getSwitch d r).verdict == 2 || (getSwitch d r).verdict == 3)

/-- The pulse of its own that a site carries in this period: a probe, a retest or a capture pulse. -/
def ownPulse (d : Shed) (i : Nat) : Option (Nat × Nat × PulseKind) :=
  match planSite d i with
  | some x => x.special.find? fun o => o.1 == d.drive.period
  | none => none

/-- The site's pulse of this period is of its own kind `q`. -/
def isOwn (d : Shed) (i : Nat) (q : PulseKind) : Bool := ((ownPulse d i).map (·.2.2)) == some q

/-- Amplitude code of the site's pulse in this period. -/
def codeNow (d : Shed) (i : Nat) : Nat :=
  match ownPulse d i with
  | some o => o.2.1
  | none => ((planSite d i).map (·.ampOut)).getD 0

/-! Headroom (03, R110, R111). -/

/-- Sample of a group's loop: reduced probes and capture pulses do not count. -/
def headroomOf (d : Shed) (o : PulseObs) : Bool :=
  let i := 128 * o.row + o.ch
  leadSite d i == i && (boosterOf d.cfgDrv o.ch).isNone && o.clocks ≥ 200 
    && !isOwn d i .reduced && !isOwn d i .capture && !rowTripped d o.row

/-- What one period does to a group's TRIM (R111): the register and the count of periods above the band. VMIN keeps its value in a period
whose samples are all invalid, which gives it no lowest valid sample (log entry 193). -/
def trimStep (t : Table Word) (g : Nat) (samples : List Nat) (w : Word) (down : Nat) : Word × Nat :=
  let sg := R.sgCfg + g
  let tr := R.trimCfg + g
  let code := w.fld 31 22
  let hi := cf t tr 29 20
  let lo := cf t tr 19 10
  let put := fun (w : Word) (code : Nat) (wantUp wantDown : Bool) =>
    (((w.withFld 31 22 code).withFld 7 7 (bit01 (wantUp && code == hi))).withFld 6 6 (bit01 (wantDown && code == lo)))
  if samples.isEmpty then ((put (w.withFld 3 0 0) code false false).withFld 5 5 1, down)
  else
    let w := w.withFld 5 5 0
    let good := samples.filter (dropout t g ≤ ·)
    if good.isEmpty then
      let w := w.withFld 3 0 (min (w.fld 3 0 + 1) 15)
      (put w (min (code + cf t sg 7 4) hi) true false, down)
    else
      let vmin := good.foldl min 1000000
      let w := (w.withFld 3 0 0).withFld 21 14 (min 255 (vmin / 10))
      let target := 300 + 10 * cf t sg 15 8
      let band := 25 * (cf t tr 9 6 + 1)
      if vmin + band < target then (put w (min (code + cf t sg 7 4) hi) true false, down)
      else if vmin > target + band then
        if down + 1 > cf t sg 3 0 then (put w (max (code - 1) lo) false true, 0) else (put w code false true, down + 1)
      else (put w code false false, down)

/-- The loops of the enabled groups at the end of a period. A group that is enabled while the shed drives goes on from the code that it
holds (log entry 194). -/
def trimLoops (k : Nat) (obs : List PulseObs) (s : State) : State :=
  forAll ((List.range 4).filter fun g => (cw (getShed s k).cfgDrv R.shedCfg).bit (4 + g)) (fun g s =>
    let d := getShed s k
    let vs := (obs.filter fun o => groupOf o.ch == g && headroomOf d o).map (·.sink)
    let a := trimStep d.cfgDrv g vs (reg s k (R.trimSt + g)) (Table.get 0 d.drive.down g)
    let starved := a.1.fld 3 0 > 0
    let s := setReg k (R.trimSt + g) a.1 s
    let s := if starved && shedShadow s k then shedTrip k 4 (4 * k + g) s else s
    updShed k (fun d => { d with drive := { d.drive with down := Table.put 0 d.drive.down g a.2 } }) s) s

/-- DROPOUT is due: STARVE has reached eight and the flag is not set (R111). -/
def dropoutDue (s : State) (k g : Nat) : Bool :=
  regf s k (R.trimSt + g) 3 0 ≥ 8 && regf s k (R.trimSt + g) 4 4 == 0

/-- DROPOUT is set, with its report; within the shed's reset shadow the trip is only counted (R111; 15, R425). -/
def setDropout (k g : Nat) (s : State) : State :=
  if !dropoutDue s k g then s
  else if shedShadow s k then addTrip (isShed k) { code := 0x0B01, p1 := 0x14, p2 := 0, die := k + 1, n := 1 } s
  else shedEvent k (.fault 0x14) (setRegf k (R.trimSt + g) 4 4 1 s)

/-- Last valid headroom samples (R110, 09 R261). -/
def keepSamples (obs : List PulseObs) (d : Shed) : Shed :=
  obs.foldl (fun d o =>
    if headroomOf d o && (cw d.cfgDrv R.shedCfg).bit (4 + groupOf o.ch) && o.sink ≥ dropout d.cfgDrv (groupOf o.ch)
    then setChan o.ch { getChan d o.ch with sample := some o.sink } d else d) d

/-! Forward voltage (07, R207, R208, R213). -/

/-- Fields of a calibration record (07, Table 7.7). -/
def calV25 (w : BitVec 64) : Nat := dfld w 63 48
def calTc (w : BitVec 64) : Int := signed 16 (dfld w 47 32)
def calRd (w : BitVec 64) : Nat := dfld w 31 24
def calA (w : BitVec 64) : Nat := dfld w 23 12
def calValid (w : BitVec 64) : Bool := dfld w 11 11 == 1

/-- Conditions of R207 that concern the pulse, whatever the record. -/
def anodeSample (d : Shed) (o : PulseObs) : Bool :=
  let i := 128 * o.row + o.ch
  leadSite d i == i && anodeOf d.cfgDrv o.ch ≠ 0 && (boosterOf d.cfgDrv o.ch).isNone && o.clocks ≥ 200 && !rowTripped d o.row

/-- Corrected sample in 1/8,190 mV (R208). -/
def corrected (d : Shed) (w : BitVec 64) (o : PulseObs) : Int :=
  8190 * ((o.anode : Int) - (o.sink : Int))
    - (calRd w * (chanScale d.cfgDrv o.ch / 5000) : Nat) * ((o.code : Int) - (calA w : Int))

/-- A forward-voltage sample joins its site's mean (R207, R208). -/
def keepForward (obs : List PulseObs) (d : Shed) : Shed :=
  obs.foldl (fun d o =>
    let i := 128 * o.row + o.ch
    let w := (getSite d i).cal
    let diff := max o.code (calA w) - min o.code (calA w)
    if anodeSample d o && calValid w && o.sink ≥ dropout d.cfgDrv (groupOf o.ch) && diff ≤ calA w / 8 then
      updSite i (fun x => { x with vSum := x.vSum + corrected d w o, vN := x.vN + 1 }) d
    else d) d

/-- T_B of a capture site, at the capture's first period and at every round of it (R214, R215; log entry 197). -/
def capTemp (d : Shed) (c : CapSite) : CapSite :=
  let n := Table.get NtcIn.init d.warm.ntc (ntcOf d.cfg (chOf c.site))
  if !n.valid then { c with invalid := true }
  else
    { c with
      tbFirst := some (c.tbFirst.getD n.tb), tbMin := if c.tbFirst.isNone then n.tb else min c.tbMin n.tb
      tbMax := if c.tbFirst.isNone then n.tb else max c.tbMax n.tb, tbSum := c.tbSum + n.tb, tbN := c.tbN + 1 }

/-- A capture pulse joins the sums of its site (R213, R214, R215). -/
def capStep (d : Shed) (obs : List PulseObs) (even : Bool) (c : CapSite) : CapSite :=
  match obs.find? fun o => 128 * o.row + o.ch == c.site && anodeSample d o with
  | none => c
  | some o =>
    let v : Int := (o.anode : Int) - (o.sink : Int)
    let c := { c with low := c.low || o.sink < dropout d.cfgDrv (groupOf o.ch) }
    if even then { c with sumA := c.sumA + v, nA := c.nA + 1 } else { c with sumB := c.sumB + v, nB := c.nB + 1 }

/-- A period of the capture: its samples, and in the first one the temperatures that it starts from. -/
def keepCapture (obs : List PulseObs) (d : Shed) : Shed :=
  match d.drive.capture with
  | none => d
  | some c =>
    if markAtOrAfter d.frame c.mark && periodsFrom d c.mark d.frame d.drive.period < 64 then
      let q := periodsFrom d c.mark d.frame d.drive.period
      let begin_ := fun (x : CapSite) => if q = 0 then { capTemp d x with fs := chanScale d.cfgDrv (chOf x.site) } else x
      let c := { c with sites := c.sites.map fun x => capStep d obs (q % 2 == 0) (begin_ x), periods := q + 1 }
      { d with drive := { d.drive with capture := some c } }
    else d

/-- Status of a capture site (R215, Table 7.8), for one whose periods were all made; that of a lit REGULATED function is the yard's. -/
def capStatus (d : Shed) (c : CapSite) : Nat :=
  let ch := chOf c.site
  if anodeOf d.cfgDrv ch = 0 || (boosterOf d.cfgDrv ch).isSome then 4
  else if !ntcEnOf d.cfgDrv ch || c.invalid || c.tbN = 0 then 1
  else if c.tbMax - c.tbMin > 8 then 2
  else if c.low then 3
  else if c.nA = 0 || c.nB = 0 then 6
  else 0

/-- The shed reports a capture whose 64 periods are made (R214). -/
def reportCapture (k : Nat) (s : State) : State :=
  let d := getShed s k
  match d.drive.capture with
  | some c =>
    if c.periods < 64 then s
    else
      let c := { c with sites := c.sites.map fun x => { x with status := capStatus d x } }
      shedEvent k (.captured c) (setShed k { d with drive := { d.drive with capture := none } } s)
  | none => s

/-! Observations (08). On-state classes: 1 ON_OV, 2 ON_LOW, 3 ON_HIGH, 4 ON_OK. Off-state: 1 OFF_SUP, 2 OFF_NORM, 3 OFF_OPEN,
4 OFF_GND. -/

/-- Class of an on-state observation of pulse `n` of its site in the period (Table 8.2). -/
def onClass (d : Shed) (n : Nat) (o : PulseObs) : Nat :=
  let g := groupOf o.ch
  let ls := cf d.cfgDrv R.diagLs (8 * g + 7) (8 * g)
  if (getChan d o.ch).cuts.contains (o.row, n) then 1
  else if o.sinkEarly < dropout d.cfgDrv g then 2
  else if ls ≠ 0 && o.sinkEarly > ls * 100 then 3
  else 4

/-- Qualifying pulse of an on-state observation (R226). -/
def onQualifies (d : Shed) (o : PulseObs) : Bool :=
  (boosterOf d.cfgDrv o.ch).isNone && o.clocks ≥ 300 && o.code ≥ 16 && !rowTripped d o.row && !rowBlocked d o.row

/-- The class of the first qualifying pulse of each sink's site in the period; a site's pulses come in their order. -/
def onObs (d : Shed) (obs : List PulseObs) : List (Nat × Nat) :=
  (obs.foldl (fun (a : List (Nat × Nat) × List Nat) o =>
    let i := 128 * o.row + o.ch
    let n := (a.2.filter (· == i)).length
    (if (a.1.any fun p => p.1 == i) || !onQualifies d o then a.1 else a.1 ++ [(i, onClass d n o)], a.2 ++ [i])) ([], [])).1

/-- Class of an off-state observation (Table 8.2). -/
def offClass (o : OffObs) : Nat :=
  if o.down + 500 ≥ o.ref then 1 else if o.down ≥ 400 then 2 else if o.up > 1500 then 3 else 4

/-- One of the sixteen retest periods of function `fn` runs (R253). -/
def retestRuns (d : Shed) (fn : Nat) : Bool :=
  match d.drive.retest with
  | some (f, m) => f == fn && fnState d fn == 2 && markAtOrAfter d.frame m && periodsFrom d m d.frame d.drive.period < 16
  | none => false

/-- A site's function is in its retest periods. -/
def inRetest (d : Shed) (i : Nat) : Bool := saFnEn (siteAttr d.front (leadSite d i)) && retestRuns d (siteFn d (leadSite d i))

/-- Period `p` of frame `f` is a probe period of the site (R238). -/
def probeAt (d : Shed) (lead : Nat) (f : Word) (p : Nat) : Bool :=
  ((f.toNat * d.perN + p) % 65536 + chOf lead) % probeInterval d.cfgDrv (siteReg d lead) == 0

/-- The site's latest probe period, in this frame or the one before (R227). -/
def lastProbe (d : Shed) (lead : Nat) : Option (Word × Nat) :=
  match ((List.range (d.drive.period + 1)).filter (probeAt d lead d.frame)).getLast? with
  | some p => some (d.frame, p)
  | none => (((List.range d.perN).filter (probeAt d lead (d.frame - 1))).getLast?).map fun p => (d.frame - 1, p)

/-- Period `a` lies before period `b`. -/
def earlier (a b : Word × Nat) : Bool := if a.1 = b.1 then a.2 < b.2 else !markAtOrAfter a.1 b.1

/-- The period allows an off-state observation of the site: a retest period, or one from the probe period to the end of the following
frame, the first in which one is made (R227, R253). -/
def offAllowed (d : Shed) (i : Nat) : Bool :=
  let lead := leadSite d i
  let due := match lastProbe d lead, (getSite d i).offObs with
    | none, _ => false
    | some _, none => true
    | some q, some o => earlier o q
  drivable d.cfgDrv lead && (boosterOf d.cfgDrv (chOf lead)).isNone && (inRetest d i || due)

/-- The period has a stretch of 1,700 grey clocks of the site's usable span in which its channel is off (R227). -/
def offStretch (d : Shed) (i : Nat) : Bool :=
  let (s0, e) := spanOf d.cfgDrv d.perP i
  let ps : List (Nat × Nat) := match planSite d (leadSite d i) with
    | some x => if d.drive.off then [] else (x.pulses.filter fun p => p.1 == d.drive.period).map fun p => (p.2.1, p.2.1 + p.2.2)
    | none => []
  (s0 :: ps.map (·.2)).any fun t => decide (s0 ≤ t) && decide (t + 1700 ≤ e) &&
    ps.all fun p => decide (p.2 ≤ t) || decide (t + 1700 ≤ p.1)

/-- Off-state observations of the period. -/
def offObs (d : Shed) (obs : List OffObs) : List (Nat × Nat) :=
  (obs.filter fun o => o.ch < 128 && o.row < 16 && o.ref ≥ cf d.cfgDrv R.diagCfg 19 14 * 1000
    && offAllowed d (128 * o.row + o.ch) && offStretch d (128 * o.row + o.ch)).map fun o => (128 * o.row + o.ch, offClass o)

/-- On-state observations of booster-bound sites (R237). -/
def boosterSiteObs (d : Shed) (obs : List BoosterObs) : List (Nat × Nat) :=
  obs.filterMap fun o =>
    let x := R.xcCfg + o.xc
    if o.xc < 8 && cf d.cfgDrv x 31 31 == 1 && o.clocks ≥ max 300 (cf d.cfgDrv x 21 16 * 64) then
      let i := cf d.cfgDrv x 30 24
      match planSite d i with
      | some _ =>
        -- setting in µV: 100 mV × SET / 1,023 × A / 4,095
        let set := 100000 * cf d.cfgDrv x 9 0 * codeNow d i
        if rowBlocked d (rowOf i) then none
        else if 10 * o.sense * 1023 * 4095 ≥ 9 * set then some (i, 4)
        else if 10 * o.sense * 1023 * 4095 < set && o.gateHigh then some (i, 2)
        else none
      | none => none
    else none

/-- Raw observation of a switch (Table 8.4): 1 none of the faults, else the verdict's code. `ons` are the sinks' observations. -/
def switchRaw (d : Shed) (ons : List (Nat × Nat)) (o : SwitchObs) : Nat :=
  let row := ons.filter fun p => rowOf p.1 == o.sw
  let on_ := (switchPlan d o.sw).isSome
  let rowMode := switchMode d.cfgDrv o.sw == 1
  if (o.low && on_) || (rowMode && row.length ≥ 2 && row.all fun p => p.2 == 2) then 2
  else if (getSwitch d o.sw).tripped then 3
  else if o.high && (rowMode || !on_) then 4
  else 1

/-- Raw observation of a booster (Table 8.4). -/
def boosterRaw (d : Shed) (o : BoosterObs) : Nat :=
  if o.gateFast then 2 else if o.senseHigh then 3 else if (getBooster d o.xc).tripped then 4 else 1

/-- Agreement count of R230. -/
def countRaw (raw n cls : Nat) : Nat × Nat := if raw = cls then (cls, n + 1) else (cls, 1)

def debounceN (d : Shed) : Nat := cf d.cfgDrv R.diagCfg 31 28

/-- A raw on-state observation of a site (R230), with the tally of a retest (R254). One that agrees with a class that is no longer fresh
makes it fresh again (R231). -/
def rawOn (d : Shed) (p : Nat × Nat) : Shed :=
  let tally := inRetest d p.1
  updSite p.1 (fun x =>
    let (r, n) := countRaw x.rawOn x.rawOnN p.2
    { x with rawOn := r, rawOnN := n, rawOnAt := d.drive.periods
             onDue := if x.clsOn = p.2 then !x.onLive else n ≥ debounceN d
             onAt := if x.clsOn = p.2 then d.drive.periods else x.onAt
             rtOn := x.rtOn + bit01 tally, rtBad := x.rtBad || (tally && p.2 ≠ 4) }) d

/-- A raw off-state observation of a site. -/
def rawOff (d : Shed) (p : Nat × Nat) : Shed :=
  let tally := inRetest d p.1
  updSite p.1 (fun x =>
    let (r, n) := countRaw x.rawOff x.rawOffN p.2
    { x with rawOff := r, rawOffN := n, rawOffAt := d.drive.periods
             offDue := if x.clsOff = p.2 then !x.offLive else n ≥ debounceN d
             offAt := if x.clsOff = p.2 then d.drive.periods else x.offAt
             offObs := some (d.frame, d.drive.period), rtBad := x.rtBad || (tally && p.2 ≠ 2) }) d

/-- A raw observation of a switch or booster (R235). -/
def rawUnit (d : Shed) (x : OutUnit) (cls : Nat) : OutUnit :=
  let (r, n) := countRaw x.raw x.rawN cls
  { x with raw := r, rawN := n, due := n ≥ debounceN d && x.verdict ≠ cls }

/-! Verdicts. -/

/-- Table 8.3: the verdict and OFF_ONLY, or none when unchanged; STARVED in the third place. -/
def decideVerdict (on off old : Nat) : Option (Nat × Bool) × Bool :=
  match on, off with
  | 4, _ => (some (1, false), false)
  | 3, 1 => (some (4, false), false)
  | 3, _ => (some (5, false), false)
  | 1, 2 => (some (5, false), false)
  | 1, _ => (some (4, false), false)
  | 2, 3 => (some (2, false), false)
  | 2, 4 => (some (3, false), false)
  | 2, 1 => (some (4, false), false)
  | 2, 2 => (none, true)
  | 2, _ => (some (2, false), false)
  | _, 2 => (some (if old = 5 then 5 else 1, true), false)
  | _, 3 => (some (2, true), false)
  | _, 4 => (some (3, true), false)
  | _, 1 => (some (4, true), false)
  | _, _ => (none, false)

/-- Verdict of a paralleled group from its members' (R234), with OFF_ONLY of the member that decides. -/
def groupVerdict (ms : List (Nat × Bool)) : Nat × Bool :=
  let pick := fun v => ms.find? fun m => m.1 == v
  (((((pick 4).orElse fun _ => pick 3).orElse fun _ => pick 5).orElse fun _ => pick 2).orElse fun _ => pick 1).getD (0, false)

/-- The function goes dark in the shed: its pulses end and its state is FAILED_OFF (R248). -/
def fnDark (f : Nat) (d : Shed) : Shed :=
  let mine := fun (i : Nat) => saFnEn (siteAttr d.front i) && siteFn d i == f
  { d with drive := { d.drive with
      failed := Table.put 0 d.drive.failed f 1
      plan := { d.drive.plan with sites := d.drive.plan.sites.filter fun x => !mine x.site }
      next := d.drive.next.map fun p => { p with sites := p.sites.filter fun x => !mine x.site }
      placing := d.drive.placing.map fun p => { p with items := p.items.filter fun x => !mine x.lit.site } } }

/-- Sites of a paralleled group that follow site `i`, with `i` itself. -/
def groupSites (d : Shed) (i : Nat) : List Nat := (List.range (membersOf d.cfgDrv (chOf i))).map (i + ·)

/-- A site takes a verdict, with the sites that follow it in its paralleled group (00, R7): report, and the reaction of a REGULATED
function (R245, R248). -/
def takeVerdict (k i v : Nat) (offOnly : Bool) (s : State) : State :=
  let d := getShed s k
  let x := getSite d i
  let s := setShed k ((groupSites d i).foldl (fun d j => updSite j (fun y => { y with verdict := v, offOnly := offOnly }) d) d) s
  if x.verdict = v && x.offOnly = offOnly then s
  else
    let a := siteAttr d.front i
    let s := if failVerdict v && saFnEn a && siteReg d i && fnState d (saFn a) = 0 then updShed k (fnDark (saFn a)) s else s
    shedEvent k (.verdict i (groupSites d i).length x.verdict v offOnly) s

/-- The classes that count in Table 8.3: those that are fresh (R231). -/
def Site.onCls (x : Site) : Nat := if x.onLive then x.clsOn else 0
def Site.offCls (x : Site) : Nat := if x.offLive then x.clsOff else 0

/-- The verdict of a site is formed again from its classes (R233, R234, R237). -/
def formVerdict (k i : Nat) (s : State) : State :=
  let d := getShed s k
  let x := getSite d i
  let t := d.cfgDrv
  let booster := boosterOf t (chOf i)
  let (v, starved) := decideVerdict x.onCls (if booster.isSome then 0 else x.offCls) x.mine
  let s := if x.onCls = 4 && x.offCls ≠ 0 && x.offCls ≠ 2 then bumpReg k R.diagSt 7 4 s else s
  let s := if starved then shedEvent k (.starved i) (bumpReg k R.diagSt 3 0 s) else s
  match v with
  | none => s
  | some (v, off) =>
    let s := updShed k (updSite i fun x => { x with mine := v, mineOff := off }) s
    let d := getShed s k
    let lead := leadSite d i
    if rowBlocked d (rowOf i) then s
    else
      match booster with
      | some n =>
        let b := (getBooster d n).verdict
        takeVerdict k lead (if b = 4 then 4 else if b ≥ 2 then 2 else v) (if b ≥ 2 then false else off) s
      | none =>
        let g := groupVerdict ((List.range (membersOf t (chOf lead))).map fun j =>
          ((getSite d (lead + j)).mine, (getSite d (lead + j)).mineOff))
        takeVerdict k lead g.1 g.2 s

/-- A site's debounced class takes the value that waits (R230). -/
def completeSite (k i : Nat) (off : Bool) (s : State) : State :=
  let d := getShed s k
  let x := getSite d i
  if off then
    if !x.offDue then s
    else formVerdict k i (setShed k (setSite i { x with clsOff := x.rawOff, offDue := false, offLive := true, offAt := x.rawOffAt } d) s)
  else
    if !x.onDue then s
    else formVerdict k i (setShed k (setSite i { x with clsOn := x.rawOn, onDue := false, onLive := true, onAt := x.rawOnAt } d) s)

/-- A scan switch takes the verdict that waits; a row whose switch fails is blocked (R235, R236). -/
def completeSwitch (k r : Nat) (s : State) : State :=
  let d := getShed s k
  let x := getSwitch d r
  if !x.due then s
  else
    let s := setShed k (setSwitch r { x with verdict := x.raw, due := false } d) s
    let s := shedEvent k (.switchVerdict r x.verdict x.raw) s
    if switchMode d.cfgDrv r == 1 && (x.raw == 2 || x.raw == 3) then
      forAll (((List.range 128).map (128 * r + ·)).filter (drivable d.cfgDrv)) (fun i s => takeVerdict k i 6 false s) s
    else s

/-- A booster channel takes the verdict that waits, and its bound site follows (R235, R237). -/
def completeBooster (k n : Nat) (s : State) : State :=
  let d := getShed s k
  let x := getBooster d n
  if !x.due then s
  else
    let s := setShed k (setBooster n { x with verdict := x.raw, due := false } d) s
    let s := shedEvent k (.boosterVerdict n x.verdict x.raw) s
    let i := cf d.cfgDrv (R.xcCfg + n) 30 24
    if rowBlocked d (rowOf i) then s
    else if x.raw = 4 then takeVerdict k i 4 false s
    else if x.raw ≥ 2 then takeVerdict k i 2 false s
    else
      let y := getSite (getShed s k) i
      if x.verdict ≥ 2 then takeVerdict k i y.mine y.mineOff s else s

/-- A class is no longer fresh (R231): its latest agreeing observation lies more than 2 × I periods back. -/
def staleOn (d : Shed) (i : Nat) : Bool :=
  let x := getSite d i
  x.onLive && x.onAt + 2 * probeInterval d.cfgDrv (siteReg d (leadSite d i)) < d.drive.periods

def staleOff (d : Shed) (i : Nat) : Bool :=
  let x := getSite d i
  x.offLive && x.offAt + 2 * probeInterval d.cfgDrv (siteReg d (leadSite d i)) < d.drive.periods

/-- A class that is no longer fresh counts as none, and the verdict is formed again (R231, R233). -/
def expireSite (k i : Nat) (off : Bool) (s : State) : State :=
  let d := getShed s k
  let x := getSite d i
  if off then if staleOff d i then formVerdict k i (setShed k (setSite i { x with offLive := false } d) s) else s
  else if staleOn d i then formVerdict k i (setShed k (setSite i { x with onLive := false } d) s) else s

/-- What earlier periods left pending in a shed's diagnostics. -/
def finishDiag (k : Nat) (s : State) : State :=
  let is := (getShed s k).sites.map (·.1)
  let s := forAll is (fun i s => completeSite k i true (completeSite k i false s)) s
  let s := forAll is (fun i s => expireSite k i true (expireSite k i false s)) s
  let s := forAll (List.range 16) (completeSwitch k) s
  let s := forAll (List.range 8) (completeBooster k) s
  forAll (List.range 4) (setDropout k) s

/-- What a trip shows of a switch or a booster that the period's observations do not name (03, R97, R106). -/
def tripObs (d : Shed) (obs : PeriodObs) : List SwitchObs × List BoosterObs :=
  ((d.switches.filter fun p => p.2.tripped && !(obs.switches.any fun o => o.sw == p.1)).map fun p =>
     { sw := p.1, volts := 0, low := false, high := false },
   (d.boosters.filter fun p => p.2.tripped && !(obs.boosters.any fun o => o.xc == p.1)).map fun p =>
     { xc := p.1, gateFast := false, senseHigh := false, clocks := 0, sense := 0, gateHigh := false })

/-- Switches and boosters that are observed in the period, and the voltages of the rows. -/
def unitObs (d : Shed) (obs : PeriodObs) (ons : List (Nat × Nat)) : Shed :=
  let t := tripObs d obs
  let sw := obs.switches.filter fun o => o.sw < 16
  let d := (sw ++ t.1).foldl (fun d o => setSwitch o.sw (rawUnit d (getSwitch d o.sw) (switchRaw d ons o)) d) d
  let d := ((obs.boosters ++ t.2).filter fun o => o.xc < 8 && cf d.cfgDrv (R.xcCfg + o.xc) 31 31 == 1).foldl (fun d o =>
    setBooster o.xc (rawUnit d (getBooster d o.xc) (boosterRaw d o)) d) d
  let rows := sw.filter fun o => switchMode d.cfgDrv o.sw == 1
  { d with warm := { d.warm with rowRef := rows.foldl (fun t o => Table.put 0 t o.sw o.volts) d.warm.rowRef } }

/-- Observations within the shed's reset shadow are discarded and counted (15, R425). -/
def discardObs (k : Nat) (ons offs : List (Nat × Nat)) (obs : PeriodObs) (s : State) : State :=
  let s := match ons ++ offs with | p :: _ => shedTrip k 1 (2048 * k + p.1) s | [] => s
  let s := match obs.switches with | o :: _ => shedTrip k 2 (16 * k + o.sw) s | [] => s
  match obs.boosters with | o :: _ => shedTrip k 3 (8 * k + o.xc) s | [] => s

/-- The period's flags end with it: cut-offs, trips of ROW switches and of boosters (03, R92, R97, R106). -/
def endPeriod (d : Shed) : Shed :=
  { d with
    chans := d.chans.filterMap fun p =>
      let c := { p.2 with cuts := [] }
      if c = Chan.init then none else some (p.1, c)
    switches := d.switches.filterMap fun p =>
      let c := if switchMode d.cfgDrv p.1 == 1 then { p.2 with tripped := false } else p.2
      if c = OutUnit.init then none else some (p.1, c)
    boosters := d.boosters.filterMap fun p =>
      let c := { p.2 with tripped := false }
      if c = OutUnit.init then none else some (p.1, c)
    drive := { d.drive with period := d.drive.period + 1, periods := d.drive.periods + bit01 (!d.drive.off) } }

/-- The end of a period (03, R111; 07, R207, R213; 08, R226 to R237). -/
def periodEnd (k : Nat) (obs : PeriodObs) (s : State) : State :=
  let s := finishDiag k s
  let d := getShed s k
  if d.drive.off then updShed k endPeriod (trimLoops k [] s)
  else
    let ps := ownPulses d obs
    let sinks := onObs d ps
    let ons := sinks ++ boosterSiteObs d obs.boosters
    let offs := offObs d obs.offs
    let s := trimLoops k ps s
    let s := updShed k (fun d => keepCapture ps (keepForward ps (keepSamples ps d))) s
    let s := if shedShadow s k then discardObs k ons offs obs s
      else updShed k (fun d => unitObs (offs.foldl rawOff (ons.foldl rawOn d)) obs sinks) s
    reportCapture k (updShed k endPeriod s)

end Sys2Proof.Machine
end

