-- ==== Sys2Proof/Machine/LampTemp.lean ====
section
/-! DEFINITION. Lamp temperature (07): the thermistor equation (R202), validity (R203, R204), the estimates of a round (R208 to
R212), calibration records (R216). Temperatures are in 1/16 K of °C. -/

namespace Sys2Proof.Machine

open Sys2Proof

/-! ln in a fixed point of 96 fraction bits, good to far below the resolution of R202. -/

def lnOne : Nat := 2 ^ 96

/-- 2 atanh(n / d) by its series: `m` terms from term `k` on; `pw` is the current odd power. -/
def atanhTerms (sq : Nat) (m k : Nat) (pw acc : Nat) : Nat :=
  match m with
  | 0 => acc
  | j + 1 => atanhTerms sq j (k + 1) (pw * sq / lnOne) (acc + 2 * pw / (2 * k + 1))

/-- ln of `n / d` for n / d from 1 up to 2. -/
def lnUnit (n d : Nat) : Nat :=
  let z := lnOne * (n - d) / (n + d)
  atanhTerms (z * z / lnOne) 40 0 z 0

/-- Powers of two that take `n / d` (at least 1) below 2, counted with fuel. -/
def halvings (fuel n d : Nat) : Nat :=
  match fuel with
  | 0 => 0
  | f + 1 => if n < 2 * d then 0 else 1 + halvings f n (2 * d)

/-- ln of a positive fraction at least 1. -/
def lnBig (n d : Nat) : Nat :=
  let k := halvings 64 n d
  k * lnUnit 2 1 + lnUnit n (d * 2 ^ k)

/-- ln of a positive fraction. -/
def lnFrac (n d : Nat) : Int := if d ≤ n then (lnBig n d : Int) else -(lnBig d n : Int)

/-- T_B of R202 for an ADC code from 1 to 4,095: rounded to nearest, with the rounding error that R202 allows and, where the
equation gives no temperature that the field can hold, a free value (log entry 16). -/
def boardTemp (code rnom b : Nat) : Int :=
  let e := Config.ntcError (code + 4096 * (rnom + 32768 * b))
  -- 1/T = 1/298.15 + ln(R / R25) / B, so T = 298.15 B / (B + 298.15 ln)
  let den : Int := (b : Int) * (lnOne : Int) * 100 + 29815 * lnFrac (1000 * code) ((4096 - code) * max rnom 1)
  if den ≤ 0 then signed 16 e
  else
    -- 16 T − 16 × 273.15, in hundredths over den, rounded
    let n : Int := 16 * 29815 * (b : Int) * (lnOne : Int) * 100 - 437040 * den
    let t := (2 * n + 100 * den) / (200 * den) + (((e % 3 : Nat) : Int) - 1)
    if t < -32768 || 32767 < t then signed 16 e else t

/-- Temperature of a code with offset −40 °C, in 1/16 K. -/
def codeTemp (c : Nat) : Int := 16 * ((c : Int) - 40)

def getNtc (d : Shed) (n : Nat) : NtcIn := Table.get NtcIn.init d.warm.ntc n
def setNtc (n : Nat) (x : NtcIn) (d : Shed) : Shed := { d with warm := { d.warm with ntc := Table.put NtcIn.init d.warm.ntc n x } }

/-- T_B of an input where it is used: TFAIL while invalid (R203). -/
def boardOf (d : Shed) (n : Nat) : Int := if (getNtc d n).valid then (getNtc d n).tb else codeTemp (cf d.cfg R.ltCfg 31 24)

/-- One conversion of an input (R202 to R204): its new state, and whether it has just been declared open or shorted, by its second
out-of-range read in a row, or by the single one that follows the loading of the configuration (`first`). -/
def ntcStep (t : Table Word) (first : Bool) (n code : Nat) (x : NtcIn) : NtcIn × Option Bool :=
  let bad := code ≤ 41 || 4055 ≤ code
  if bad then
    let falls := first || x.bad = 1
    ({ x with bad := if first then 2 else min 2 (x.bad + 1), good := 0, valid := x.valid && !falls, read := true },
     if falls then some (decide (4055 ≤ code)) else none)
  else
    let tb := boardTemp code (cf t (R.ntcCfg + n) 30 16) (cf t (R.ntcCfg + n) 15 0)
    let good := min 4 (x.good + 1)
    ({ x with bad := 0, good := good, tb := tb, valid := x.valid || good ≥ 4 || !x.read, read := true }, none)

/-- Every enabled input is converted (R202, R203; Table 7.3). While an input is out of range its flag is set again after a clear (00,
R13). -/
def convertInputs (k : Nat) (first : Bool) (codes : List Nat) (s : State) : State :=
  forAll ((List.range 4).filter fun n => cf (getShed s k).cfg (R.ntcCfg + n) 31 31 == 1) (fun n s =>
    let d := getShed s k
    let code := codes.getD n 0 % 4096
    let (x, out) := ntcStep d.cfg first n code (getNtc d n)
    let s := setShed k (setNtc n x d) s
    let r := R.ntcSt + n
    let s := setRegf k r 31 20 code (setRegf k r 19 4 (toBits 16 (boardOf (getShed s k) n)) (setRegf k r 1 1 (bit01 x.valid) s))
    let s := if x.bad < 2 then s else if code ≤ 41 then setRegf k r 2 2 1 s else setRegf k r 3 3 1 s
    match out with
    | some opened => shedEvent k (.ntc n opened) s
    | none => s) s

/-- Board temperatures that the estimates take: inputs 0 to 3 and TFIX (R209). -/
def bases (d : Shed) : List Int := (List.range 4).map (boardOf d) ++ [codeTemp (cf d.cfg R.ltAux 31 24)]

/-- T_V of a site from the samples of the round (R208). -/
def forwardT (x : Site) : Option Int :=
  if x.vN = 0 || !calValid x.cal || calTc x.cal = 0 then none
  else
    let n : Int := 8000 * (x.vSum - 8190 * (x.vN : Int) * (calV25 x.cal : Int))
    let d : Int := 8190 * (x.vN : Int) * calTc x.cal
    some (400 + (if d < 0 then roundDivI (-n) d.natAbs else roundDivI n d.natAbs))

/-- The update of R209 for one site: its new state, and whether an estimate was rejected. -/
def estimate (d : Shed) (i : Nat) (x : Site) : Site × Bool :=
  let c := chOf i
  let tb := (bases d).getD (baseIndex d.cfg c) 0
  let valid := (getNtc d (ntcOf d.cfg c)).valid
  let en := ntcEnOf d.cfg c
  let tv := forwardT x
  let keep := { x with tv := tv, vSum := 0, vN := 0 }
  let move := fun (v : Int) => { keep with delta := x.delta + (v - x.delta) / (2 ^ cf d.cfg R.ltCfg 15 13 : Nat) }
  match tv with
  | some t =>
    if !en || valid then
      let v := t - tb
      if en && (v > 16 * (cf d.cfg R.ltCfg 11 6 : Nat) || v < -16 * (cf d.cfg R.ltCfg 5 0 : Nat)) then (keep, true)
      else (move v, false)
    else (keep, false)
  | none => if en && !valid then (keep, false) else (move 0, false)

/-- Newest lamp temperature of a site. -/
def lampNext (d : Shed) (i : Nat) : Int := d.warm.baseNext.getD (baseIndex d.cfg (chOf i)) 0 + (getSite d i).delta

/-- LAMP_HOT of driven sites (R212). -/
def hotReports (k : Nat) (s : State) : State :=
  forAll (lamps (getShed s k)) (fun i s =>
    let d := getShed s k
    let x := getSite d i
    let t := lampNext d i
    let hot := codeTemp (cf d.cfg R.ltCfg 23 16)
    if t > hot && !x.hot then shedEvent k (.lampHot i t) (setShed k (setSite i { x with hot := true } d) s)
    else if t < hot - 80 && x.hot then setShed k (setSite i { x with hot := false } d) s
    else s) s

/-- The estimates of the round, and the capture's temperatures. -/
def updateEstimates (k : Nat) (s : State) : State :=
  let d := getShed s k
  let ls := d.sites.map fun p => (p.1, estimate d p.1 p.2)
  let rejected := (ls.filter fun p => p.2.2).length
  let running := match d.drive.capture with | some c => markAtOrAfter d.frame c.mark | none => false
  let d' := { d with
    sites := (ls.map fun p => (p.1, p.2.1)).filter fun p => p.2 ≠ Site.init
    warm := { d.warm with baseNext := bases d, tl := d.warm.tl ++ [(d.warm.roundAt, bases d,
      ls.foldl (fun t p => Table.put 0 t p.1 p.2.1.delta) [])] }
    drive := { d.drive with capture := if running then d.drive.capture.map fun c => { c with sites := c.sites.map (capTemp d) }
                                       else d.drive.capture } }
  addReg k R.ltAux 23 16 rejected (setShed k d' s)

/-- Readings below VSUP within the shed's shadow (15, Table 15.13). -/
def lowSupplies (k : Nat) (r : ShedReadings) (s : State) : State :=
  let lim := cf (getShed s k).cfg R.diagCfg 19 14 * 1000
  if !shedShadow s k then s
  else forAll ((List.range 8).filter fun i => (r.vls ++ r.vscan).getD i lim < lim) (fun i s => shedTrip k 5 (8 * k + i) s) s

/-- The faults that a shed's readings show (09, R259; 15, Table 15.2). -/
def readingFaults (k : Nat) (r : ShedReadings) (s : State) : State :=
  let s := if r.refOk then s else shedEvent k (.fault 0x10) s
  let s := if r.logicLow then shedEvent k (.fault 0x0F) s else s
  let s := if r.logicHigh then shedEvent k (.fault 0x17) s else s
  if r.refOk && (r.die < -55 * 16 || r.die > 210 * 16) then shedEvent k (.fault 0x11) s else s

/-- A shed's round conversions are complete (R202 to R212; 09, R258, R259). -/
def shedRound (k : Nat) (r : ShedReadings) (s : State) : State :=
  let s := readingFaults k r s
  let s := updShed k (fun d => { d with warm := { d.warm with busy := false, readings := some r, codes := r.ntc } }) s
  if !r.refOk then updateEstimates k s |> hotReports k
  else
    let s := updShed k (fun d => { d with warm := { d.warm with vls := r.vls, vscan := r.vscan } }) s
    hotReports k (updateEstimates k (lowSupplies k r (convertInputs k false r.ntc s)))

/-- What a shed reads when it begins to work: its supplies and the codes of its inputs. -/
def keepReadings (r : ShedReadings) (d : Shed) : Shed :=
  { d with warm := { d.warm with vls := r.vls, vscan := r.vscan, readings := some r, codes := r.ntc } }

/-- The first conversion of a shed's inputs, with its configuration loaded and before its first PREPARE_OK or its rejoin: the
estimates start from it at once (R204, R210). -/
def firstReading (k : Nat) (s : State) : State :=
  let d := getShed s k
  match d.warm.codes, d.warm.ntc with
  | c :: cs, [] =>
    let s := convertInputs k true (c :: cs) (setShed k { d with cfg := d.cfgIn } s)
    updShed k (fun x => { x with cfg := d.cfg, warm := { x.warm with base := bases x, baseNext := bases x } }) s
  | _, _ => s

/-! Calibration (R216). -/

/-- Rounded to nearest. -/
def roundRat (x : Rat) : Int := (x + 1 / 2).floor

/-- What LT_CAL_COMMIT makes of two points (R216): a status, and the record when it is 0. -/
def calRecord (p q : CalPoint) : Nat × BitVec 64 :=
  if !p.kept || !q.kept || p.acal ≠ q.acal then (6, 0)
  else
    let mean := fun (a : Int) (n : Nat) => (a : Rat) / ((max n 1 : Nat) : Rat)
    let t0 := mean p.tbSum p.tbN / 16
    let t1 := mean q.tbSum q.tbN / 16
    let span := if t0 ≤ t1 then t1 - t0 else t0 - t1
    if span < 20 then (7, 0)
    else
      let va0 := mean p.sumA p.nA
      let va1 := mean q.sumA q.nA
      let tc := (va1 - va0) / (t1 - t0)
      let tcU := roundRat (tc * 500)
      let v25 := roundRat (va0 + tc * (25 - t0))
      let rd := fun (x : CalPoint) => (mean x.sumA x.nA - mean x.sumB x.nB)
        / ((x.fs : Rat) / 1000 * ((x.acal - 7 * x.acal / 8 : Nat) : Rat) / 4095)
      let rdU := roundRat ((rd p + rd q) / 2 * 10)
      if tcU < -32767 || -100 < tcU then (8, 0)
      else if rdU < 0 || 255 < rdU then (9, 0)
      else
        (0, BitVec.ofNat 64 (toBits 16 v25 * 2 ^ 48 + toBits 16 tcU * 2 ^ 32 + rdU.toNat * 2 ^ 24 + p.acal * 2 ^ 12 + 2 ^ 11))

end Sys2Proof.Machine
end

