-- ==== Sys2Proof/Machine/ShedOps.lean ====
section
/-! DEFINITION. What happens in a shed at a frame mark (01, R28 to R32; 02, R78; 03, R114; 05, R160; 06, R170), the configuration
that takes effect there, FRAME_STATUS, the fallback image and the reset of a shed. -/

namespace Sys2Proof.Machine

open Sys2Proof

/-- P of a FRAME_CFG word (04, R116). -/
def cfgP (w : Word) : Nat := 256 * (w.fld 31 24 + 1)

/-- N of a FRAME_CFG word (04, R116). -/
def cfgN (w : Word) : Nat := w.fld 21 16 + 1

/-- Outputs may be driven: no line, mode or fault holds them off (02, R60, R62, R64, R85; 15, R413). -/
def outputsAllowed (s : State) : Bool :=
  !s.power.lineOff && s.power.fail.isNone && !inCold s && !shutdownOn s
  && !(match s.power.entry with | some e => e.outputsOff | none => false)
  && (match s.power.resumeAt with | some t => t ≤ s.now | none => true)

/-- Outputs off: sinks, switches and boosters off, TRIM high-impedance (02, R48; 03, R112). A capture ends with it (07, R215). -/
def outputsOff (k : Nat) (s : State) : State := updShed k (fun d => { d with drive := { d.drive with off := true, capture := none } }) s

/-- Outputs off in every present shed. -/
def allOff (s : State) : State := forAll (present s) outputsOff s

/-- The shed begins to drive: every enabled group starts at TRIM_CFG.MIN of the configuration that is driven, and no headroom sample is kept
(03, R112; 09, R261). DESIGN CHOICE: the count of periods above the band starts again with it (log entry 194). -/
def beginDrive (k : Nat) (s : State) : State :=
  let s := forAll ((List.range 4).filter fun g => (cw (getShed s k).cfgDrv R.shedCfg).bit (4 + g)) (fun g s =>
    setRegf k (R.trimSt + g) 31 22 (cf (getShed s k).cfgDrv (R.trimCfg + g) 19 10) s) s
  updShed k (fun d => { d with
    chans := d.chans.filterMap fun p =>
      let c := { p.2 with sample := none }
      if c = Chan.init then none else some (p.1, c)
    drive := { d.drive with off := false, down := [] } }) s

/-! Configuration (03, R114; 04, R121, R145; 07, R210; 08, R232, R256). -/

/-- A site's row count, paralleling or booster binding changes from `a` to `b`. -/
def bindingChanges (a b : Table Word) (c : Nat) : Bool :=
  rowsOf a != rowsOf b || parOf a c != parOf b c || boosterOf a c != boosterOf b c

/-- The configuration that planning uses changes: residues and lamp-temperature deltas. -/
def planCfg (b : Table Word) (d : Shed) : Shed :=
  let a := d.cfg
  { d with
    cfg := b
    sites := if a = b then d.sites else mapSites (fun i x =>
      let c := chOf i
      let x := if bindingChanges a b c then { x with residue := 0 } else x
      if bindingChanges a b c || ltMap a c != ltMap b c then { x with delta := 0, used := 0, vSum := 0, vN := 0, tv := none }
      else x) d.sites
    -- estimates that wait for their frame lose the deltas too
    warm := if a = b then d.warm else { d.warm with tl := d.warm.tl.map fun e => (e.1, e.2.1, e.2.2.filter fun p =>
      let c := chOf p.1
      !(bindingChanges a b c || ltMap a c != ltMap b c)) } }

/-- Raw counts cleared. -/
def Site.clearRaw (x : Site) : Site :=
  { x with rawOn := 0, rawOnN := 0, rawOnAt := 0, rawOff := 0, rawOffN := 0, rawOffAt := 0, onDue := false, offDue := false }

/-- Raw counts and classes cleared. -/
def Site.clearDiag (x : Site) : Site := { x.clearRaw with clsOn := 0, clsOff := 0, onAt := 0, offAt := 0, onLive := false, offLive := false }

/-- The configuration that the driven frame uses changes: diagnostic debounce. -/
def driveCfg (d : Shed) : Shed :=
  let a := d.cfgDrv
  let b := d.cfg
  let g8 := fun (t : Table Word) (g : Nat) => cf t R.diagLs (8 * g + 7) (8 * g)
  { d with
    cfgDrv := b
    sites := if a = b then d.sites else mapSites (fun i x =>
      let c := chOf i
      if bindingChanges a b c || rangeOf a (groupOf c) != rangeOf b (groupOf c) then x.clearDiag
      else if cf a R.diagCfg 31 20 != cf b R.diagCfg 31 20 || (List.range 4).any (fun g => g8 a g != g8 b g) then x.clearRaw
      else x) d.sites }

/-! Engines at a mark. -/

/-- The engines that a mark concerns: programmed, not idle, or named by a control. -/
def busyEngines (d : Shed) : List Nat :=
  (List.range 16).filter fun e =>
    pgKeys d.front e ≠ 0 || decide (getEngine d e ≠ Engine.init) || d.ctls.any fun c => c.engine == e

/-- Every engine applies the controls of the mark and advances (06, R170, R183, R187, R192, R197). `tfOld` is the frame length before the
mark, `loads` the engines loaded at it. The newest 32 marks are kept for late controls (log entry 198). -/
def engineMark (tfOld : Nat) (loads : List Nat) (d : Shed) : Shed :=
  let auto := match d.autoAt with | some m => markAtOrAfter d.frame m | none => false
  let due := d.ctls.filter fun c => markAtOrAfter d.frame c.mark
  let p : PastMark := { frame := d.frame, tfOld := tfOld, tf := shedInterval d, engines := d.engines, loads := loads, auto := auto, ctls := due }
  let past := d.past ++ [p]
  let d1 := { d with ctls := d.ctls.filter fun c => !markAtOrAfter d.frame c.mark
                     autoAt := if auto then none else d.autoAt, past := past.drop (past.length - 32) }
  (busyEngines d).foldl (fun x e =>
    setEngine e (evalMark d.front e p (due.filter fun c => c.engine == e) (getEngine d e)) x) d1

/-- A shed that waits for its rejoin notes the frame length and the freeze of each mark (06, R193, R196). -/
def noteEra (frozen : Bool) (d : Shed) : Shed :=
  { d with restore := d.restore.map fun r => { r with eras := pushEra d.frame (shedInterval d) frozen r.eras } }

/-- The EMITs of keyframes that ended at this mark's evaluation (06, R189). -/
def markEmits (d : Shed) : List Nat :=
  if showsFallback d then []
  else d.engines.filterMap fun p => (keyEnd d.front p.1 (phaseEnd d.front p.1 (shedInterval d) p.2)).2

/-- The shed with every delay that ends at this mark ended: what the blend of the frame sees. -/
def afterDelays (d : Shed) : Shed :=
  { d with engines := d.engines.map fun p => (p.1, phaseEnd d.front p.1 (shedInterval d) p.2) }

/-! Apply and rejoin. -/

/-- COMMIT_APPLY (05, R160; 02, R52; 06, R197, R199). -/
def applyCommit (id : Nat) (d : Shed) : Shed :=
  let f := cw d.cfgIn R.frameCfg
  let d := { d with
    front := d.back, back := d.back, lastRound := id, prepared := none, held := none, badWords := [], loads := []
    engines := d.loads.foldl (fun t e => Table.put Engine.init t e Engine.init) d.engines
    ctls := d.ctls.filter fun c => !d.loads.contains c.engine || c.mark == d.frame }
  if d.boot then
    { d with mode := .joined, boot := false, change := some (d.frame + 1, cfgP f, cfgN f), autoAt := some (d.frame + 1) }
  else d

/-- The shed holds a commit for this mark. -/
def commitDue (d : Shed) : Option Nat :=
  match d.held with
  | some (id, m) => if markAtOrAfter d.frame m then some id else none
  | none => none

/-- A commit that the shed holds for this mark is applied. -/
def commitAtMark (d : Shed) : Shed := match commitDue d with | some id => applyCommit id d | none => d

/-- The engines of a rejoining shed at mark `f`, from what the yard sent with the reload and the controls since; without it the shed's own
go on (06, R193, R195). -/
def restoredEngines (f : Word) (d : Shed) : Shed :=
  let cs := (((d.restore.map (·.ctls)).getD []) ++ d.restoreCtls).eraseDups
  let d' := { d with restore := none, restoreCtls := [], past := [] }
  match d.restore with
  | none => { d' with ctls := d.ctls ++ cs }
  | some r =>
    let own := fun (e : Nat) => if d.loads.contains e then Engine.init else getEngine d e
    { d' with
      engines := (List.range 16).foldl (fun t e => Table.put Engine.init t e (restoredEngine d.front r f cs e (own e))) []
      ctls := stillDue (eraAt r.eras) (marksTo r.frame f) r.frame cs }

/-- A function takes a state in the shed (08, R248, R249, R253, R254); a retest begins with no observation made. -/
def takeFnState (f st : Nat) (d : Shed) : Shed :=
  let d := if st = 1 then fnDark f d else { d with drive := { d.drive with failed := Table.put 0 d.drive.failed f st } }
  let ends := st ≠ 2 && (match d.drive.retest with | some (g, _) => g == f | none => false)
  { d with
    drive := { d.drive with retest := if ends then none else d.drive.retest }
    sites := if st = 2 then mapSites (fun i x => if siteFn d i = f then { x with rtOn := 0, rtBad := false } else x) d.sites
             else d.sites }

/-- Function states that hold from this mark (08, R249, R253, R254). -/
def fnStates (d : Shed) : Shed :=
  let due := d.fnPend.filter fun p => markAtOrAfter d.frame p.1
  due.foldl (fun d p => takeFnState p.2.1 p.2.2 d) { d with fnPend := d.fnPend.filter fun p => !markAtOrAfter d.frame p.1 }

/-- The site is not driven under a configuration: its row is not counted, or a booster leaves its channel row 0 only (00, R6; 03, R101). -/
def undriven (t : Table Word) (i : Nat) : Bool := rowsOf t ≤ rowOf i || ((boosterOf t (chOf i)).isSome && rowOf i ≠ 0)

/-- A site that is not driven is UNTESTED (00, R6; 08, R243). -/
def untest (k i : Nat) (s : State) : State :=
  let x := getSite (getShed s k) i
  let s := updShed k (updSite i fun x => { x with verdict := 0, offOnly := false, mine := 0, mineOff := false }) s
  shedEvent k (.verdict i 1 x.verdict 0 false) s

/-- Verdicts that end or are set where the driven configuration has changed from `a`: sites that are not driven and disabled boosters are
UNTESTED, and the sites of a blocked row ROW_BLOCKED (08, R236, R243). -/
def settleVerdicts (k : Nat) (a : Table Word) (s : State) : State :=
  let d := getShed s k
  let b := d.cfgDrv
  if a = b then s
  else
    let s := forAll ((d.sites.filter fun p => p.2.verdict ≠ 0 && undriven b p.1).map (·.1)) (untest k) s
    let off := (d.boosters.filter fun p => p.2.verdict ≠ 0 && cf b (R.xcCfg + p.1) 31 31 == 0).map (·.1)
    let s := forAll off (fun n s =>
      let x := getBooster (getShed s k) n
      shedEvent k (.boosterVerdict n x.verdict 0) (updShed k (setBooster n OutUnit.init) s)) s
    forAll ((List.range 16).filter (rowBlocked d)) (fun r s =>
      forAll (((List.range 128).map (128 * r + ·)).filter (drivable b)) (fun i s => takeVerdict k i 6 false s) s) s

/-- The rejoin at mark `count` (02, R78; 04, R136; 06, R193; 08, R249). -/
def rejoin (k : Nat) (count : Word) (s : State) : State :=
  let s := firstReading k s
  let d := getShed s k
  let f := cw d.cfgIn R.frameCfg
  let d := planCfg d.cfgIn d
  let d := { d with
    mode := .joined, resync := false, reloaded := false, sentFallback := false, front := d.back, frame := count, perP := cfgP f
    perN := cfgN f, held := none, prepared := none, badWords := [], boot := false
    drive := { d.drive with forceSpread := true, noWait := [0, 1, 2, 3] } }
  let d := fnStates d
  let d := { restoredEngines (count - 1) d with loads := [] }
  let held := d.held_events
  let a := d.cfgDrv
  let s := settleVerdicts k a (setShed k { driveCfg d with held_events := [] } s)
  let s := planNow k s
  let s := resumeShadow (isShed k) (updLink k (fun l => { l with outage := none }) s)
  forAll held (fun e s => toYard k (.event e) s) s

/-! FRAME_STATUS and what the frame shows. -/

/-- Functions with a pulse in the plan (14, R405), by the scene that the plan was made from. -/
def planLit (m : Img) (p : Plan) : List Nat :=
  ((p.sites.filter fun x => !x.pulses.isEmpty && saFnEn (siteAttr m x.site)).map fun x => saFn (siteAttr m x.site)).eraseDups

/-- FRAME_STATUS of the frame that begins (01, R27; 06, R189; 07, R205; 09, R263; 14, R405). -/
def frameStatusOf (s : State) (k : Nat) : FrameSt :=
  let d := getShed s k
  let p := afterDelays (planView d)
  let ls := lits p
  { frame := d.frame, styling := lossTable p ls false, regulated := lossTable p ls true
    fixed := fixedLoss p ls (d.frame + 1) d.warm.vbat, readings := d.warm.readings
    boards := (List.range 4).map fun n => (boardOf d n, (getNtc d n).valid)
    emits := d.emits, lit := d.drive.lit, mdis := d.mdisReport, late := d.drive.late }

/-- FRAME_STATUS is sent; what it carries once is used up. DESIGN CHOICE (log entry 205): it goes at the shed's mark, so that readings which
arrive later in the frame wait for the next mark's. -/
def sendFrameStatus (k : Nat) (s : State) : State :=
  if !(getLink s k).trained then s
  else
    let p := Packet.frameStatus (frameStatusOf s k)
    toYard k p (updShed k (fun d => { d with mdisReport := 0, warm := { d.warm with readings := none } }) s)

/-- Status fields that follow the driven plan (04, Tables 4.6, 4.10, 4.11). -/
def showPlan (k : Nat) (s : State) : State :=
  let p := (getShed s k).drive.plan
  let s := forAll (List.range 4) (fun g s =>
    setRegf k (R.dimSt + g) 31 31 (bit01 (p.spread.getD g true)) (setRegf k (R.dimSt + g) 30 26 (p.reasons.getD g 0) s)) s
  forAll p.rows (fun r s => setRegf k (R.contSt + r.1) 31 20 r.2.1 (setRegf k (R.contSt + r.1) 7 0 r.2.2 s)) s

/-- Trips of switches that are not in ROW mode end with the mark (03, R97). -/
def endTrips (d : Shed) : Shed :=
  { d with switches := d.switches.filterMap fun p =>
      let x := if switchMode d.cfgDrv p.1 == 1 then p.2 else { p.2 with tripped := false }
      if x = OutUnit.init then none else some (p.1, x) }

/-- The named change of P and N takes effect at its mark (04, R118). -/
def takeChange (d : Shed) : Shed :=
  match d.change with
  | some (m, p, n) =>
    if markAtOrAfter d.frame m then
      { d with perP := p, perN := n, change := none
               cfgIn := Table.put (regInit R.frameCfg) d.cfgIn R.frameCfg (frameWord (cw d.cfgIn R.frameCfg) p n) }
    else d
  | none => d

/-- The frame turns over in the shed: plan, period, configuration, P and N, commits, function states, engines. `dark` says that its outputs
stay off, `frozen` that the engines stand still (06, R196). -/
def turnFrame (frozen dark : Bool) (d : Shed) : Shed :=
  let tfOld := shedInterval d
  let lit := if dark then [] else planLit d.front (d.drive.next.getD d.drive.plan)
  let d := { d with
    drive := { d.drive with plan := d.drive.next.getD d.drive.plan, next := none, placing := none, period := 0, lit := lit } }
  let d := takeChange d
  let d := planCfg d.cfgIn (driveCfg (endTrips d))
  let loads := if (commitDue d).isSome then d.loads else []
  let d := fnStates (commitAtMark d)
  let d := noteEra frozen d
  if frozen then { d with emits := [] }
  else
    let d := engineMark tfOld loads d
    { d with emits := markEmits d }

/-- A mark in shed `k`: received or free-run (01, R28, R32). -/
def shedMark (k : Nat) (count : Word) (s : State) : State :=
  let back := (getShed s k).reloaded
  let s := if back then rejoin k count s else ensurePlan k s
  let was := (getShed s k).mode
  let s := match (getLink s k).latPend with
    | some v => updLink k (fun l => { l with latPend := none }) (setRegf k R.linkSt 7 0 v s)
    | none => s
  let ok := outputsAllowed s && (decide (was = .joined) || decide (was = .fallback))
  let starts := (getShed s k).drive.off && ok
  let dark := (getShed s k).drive.off && !ok
  let frozen := s.power.fail.isSome
  let cfg := (getShed s k).cfgDrv
  let s := updShed k (fun d =>
    let d := { d with frame := count, markAt := s.now, markIn := none }
    let d := if back then { d with drive := { d.drive with next := some d.drive.plan } } else d
    turnFrame frozen dark d) s
  let s := settleVerdicts k cfg (if starts then beginDrive k s else s)
  let s := updShed k (fun d => { d with drive := { d.drive with forceSpread := d.drive.forceSpread && d.drive.off } }) s
  sendFrameStatus k (showPlan k s)

/-! Fallback and reset. -/

/-- A retest in the shed ends with its function dark (08, R255). -/
def dropRetest (d : Shed) : Shed :=
  match d.drive.retest with
  | some (f, _) => { d with drive := { d.drive with retest := none, failed := Table.put 0 d.drive.failed f 1 }
                            fnPend := d.fnPend.filter fun p => !(p.2.1 == f && p.2.2 == 2) }
  | none => d

/-- The shed shows its fallback image (05, R168). A capture and a retest end (07, R215; 08, R255). -/
def showFallback (k : Nat) (s : State) : State :=
  let d := getShed s k
  if decide (d.mode = .fallback) then s
  else
    let s := updShed k (fun d => { dropRetest d with
      mode := .fallback, reloaded := false, prepared := none, held := none, drive := { (dropRetest d).drive with capture := none } }) s
    let s := planNow k s
    showPlan k (if outputsAllowed s && (getShed s k).drive.off then beginDrive k s else s)

/-- Status registers of a shed at its reset value (01, Table 1.7; 03 to 09). `LAT` is measured again at the training that
follows. -/
def clearShedStatus (k : Nat) (s : State) : State :=
  forAll ((List.range 4).map (R.trimSt + ·) ++ (List.range 4).map (R.dimSt + ·) ++ [R.placeSt] ++ (List.range 16).map (R.contSt + ·)
    ++ (List.range 4).map (R.ntcSt + ·) ++ [R.ltAux, R.diagSt, R.linkSt, R.govShedSt])
    (fun n s => if n = R.ltAux then setRegf k n 23 16 0 s
      else if n = R.govShedSt then setRegf k n 15 0 0 s
      else if n = R.linkSt then setReg k n ((reg s k n).withFld 31 12 0 |>.withFld 11 10 0 |>.withFld 8 8 0) s
      else setReg k n (regInit n) s) s

/-- A site after a shed reset (04, R121; 07, R210; 08, R232): verdicts and calibration stay. -/
def Site.afterReset (x : Site) : Site :=
  { Site.init with verdict := x.verdict, offOnly := x.offOnly, mine := x.mine, mineOff := x.mineOff, cal := x.cal }

/-- The reset of one shed's logic (02, Table 2.8, R78): what it keeps is the fallback image and the state that R78 shows again,
its verdicts, configuration, calibration and function states (log entry 19). -/
def resetShed (k : Nat) (s : State) : State :=
  let s := clearShedStatus k s
  let s := updLink k (fun l => { l with
    trained := false, yard := { LinkEnd.init with lastRx := s.now, lastTx := s.now }
    shed := { LinkEnd.init with lastRx := s.now, lastTx := s.now }, latPend := none }) s
  updShed k (fun d => { d with
    mode := .safe, resync := true, reloaded := false, marksRx := 0, goodMarks := 0, markIn := none, prepared := none, held := none
    badWords := [], engines := [], ctls := [], past := [], restore := none, restoreCtls := [], emits := [], loads := [], autoAt := none, fnPend := [], lastRound := 0
    sites := mapSites (fun _ x => x.afterReset) d.sites, chans := [], switches := d.switches.filterMap (fun p =>
      let x := { OutUnit.init with verdict := p.2.verdict }
      if x = OutUnit.init then none else some (p.1, x))
    boosters := d.boosters.filterMap (fun p =>
      let x := { OutUnit.init with verdict := p.2.verdict }
      if x = OutUnit.init then none else some (p.1, x))
    mdisReport := 0, trim := 0, held_events := []
    warm := { Warm.init with vls := d.warm.vls, vscan := d.warm.vscan, vbat := d.warm.vbat }
    drive := { Drive.init with
      govern := false, derate := d.drive.derate, failed := d.drive.failed, checked := 8, periods := d.drive.periods } }) s

end Sys2Proof.Machine
end

