-- ==== Sys2Proof/Machine/Recovery.lean ====
section
/-! DEFINITION. Reset scopes and what they end (02, R73 to R79; 15, R413, R418, R422 to R424): retests and captures that are abandoned,
the outage of a link, shed, port and controller resets, the crypto engine, and the shutdown line. -/

namespace Sys2Proof.Machine

open Sys2Proof

/-- A round that shed `k` takes part in is aborted (05, Table 5.10). -/
def abortFor (k inc : Nat) (s : State) : State :=
  match s.scene.round with
  | some r =>
    if r.sheds.contains k then
      let s := abortRound 0x10 0 inc s
      if r.boot then { s with power := { s.power with loadFailed := true }
                              scene := { s.scene with loadFails := s.scene.loadFails ++ [k] } } else s
    else s
  | none => s

/-- An outage of shed `k`'s link begins under an incident, unless one runs (15, R422). -/
def beginOutage (k inc : Nat) (s : State) : State :=
  updLink k (fun l => if l.outage.isSome then l else { l with outage := some s.now, outageInc := inc, lastTry := s.now }) s

/-- Shed `k` is lost to the yard: its link is down, what needed it ends (05, Table 5.10; 07, R215; 08, R255). -/
def loseShed (k inc : Nat) (s : State) : State :=
  let s := updLink k (fun l => { l with trained := false }) (beginOutage k inc s)
  abandonRetestIn k (abortFor k inc (stopCapture k s))

/-- A shed reset (02, R78): the fallback image at once, then training and reload. Before the Stable scene is applied the shed holds
the safe state (R48) and the loader writes it again. -/
def shedReset (k inc : Nat) (s : State) : State :=
  let s := loseShed k inc (startShadow (shedBlock k) inc s)
  let s := resetShed k s
  let s := updLink k (fun l => { l with shed := { l.shed with fired := true } }) s
  if s.power.stable then showFallback k s else updShed k (fun d => { d with resync := false }) s

/-- Reset of an Ethernet port (11, R319). What it drops falls in the port's shadow (15, Table 15.6). -/
def resetEth (p inc : Nat) (s : State) : State :=
  let b : ShadowBlock := .port (Fin.ofNat 2 p)
  let here := fun (x : ShadowBlock) => x == b
  let s := startShadow b inc s
  let q := Table.get [] s.net.egress p
  let s := if q.isEmpty then s else addTrip here { code := 0x0B07, p1 := p, p2 := 10, die := 0, n := q.length } s
  let s := if p = 0 && s.net.link then addTrip here { code := 0x0902, p1 := 0, p2 := 0, die := 0, n := 1 } s else s
  let s := { s with net := { s.net with
    egress := Table.drop s.net.egress p, learned := s.net.learned.filter fun e => e.port ≠ p
    link := if p = 0 then false else s.net.link, arpDue := if p = 0 then false else s.net.arpDue } }
  resumeShadow here s

/-- Reset of a CAN FD controller (11, R328, R334). -/
def resetCan (c : Nat) (s : State) : State :=
  let s := setRegf yardDie (R.canSt + 8 * c) 15 0 0 s
  let x := getCan s c
  setCan c { x with
    bus := 0, held := false
    map := (List.range 64).foldl (fun t i =>
      if mapValid s c i then Table.put MapEntry.init t i { Table.get MapEntry.init t i with seen := s.now, trig := none }
      else t) x.map } s

/-- A SPIT reset (10, R309). -/
def resetSpit (s : State) : State :=
  setReg yardDie R.spitErr 0 { s with front := { s.front with miso := [], winBusy := false, frameErr := false } }

/-- A restart of the crypto engine (15, R418): nonces are void (their bytes go), and the self-test is to come. -/
def restartCrypto (s : State) : State :=
  let void := fun (x : Session) =>
    { x with nonce := x.nonce.map (fun v => { v with bytes := [] }), keyNonce := x.keyNonce.map (fun v => { v with bytes := [] }) }
  let s := forAll (List.range 16) (fun n s => updSess n void s) s
  { s with faults := { s.faults with crypto := false } }

/-- A controller warm reset (02, R76, Table 2.8), for the RST_CAUSE bit that it sets. The firmware's own part of the restart is
FIRMWARE_START's. -/
def warmReset (cause inc : Nat) (s : State) : State :=
  let s := setRegf yardDie R.rstCause cause cause 1 s
  let s := startShadow .yard inc s
  -- sessions, with the shadow's count of their closes
  let s := forAll (openSessions s) (fun n s =>
    addTrip (fun b => decide (b = .yard)) { code := 0x0102, p1 := 3, p2 := (getSess s n).viols.length, die := 0, n := 1 }
      (closeSession n 3 inc s)) s
  let s := abandonInstall s
  -- ports and engines; then the pages that no command returns any more
  let s := forAll (List.range 3) (fun p s => resetSpim p inc true s) s
  let s := forAll [0, 1] resetPk s
  let s := forAll [0, 1] resetCan s
  let s := resetSpit s
  let s := forAll ((s.win.own.filter fun p => p.2.owner == .device).map (·.1)) (fun p s => changeOwner p .free 0 s) s
  -- captures and retests end without reply; the engines' copies and controls of the yard are lost (06, R195)
  let s := abandonRetest 0 0 { s with
    lt := { capture := none, arrived := none, points := [], held := false }
    pat := { s.pat with checks := [], checkAt := [], since := [] } }
  { s with
    power := { s.power with fw := false, ready := false, warm := true, idleSince := none }
    scene := { s.scene with waiting := [] }
    win := { s.win with delayed := [] }
    net := { s.net with opens := [], answers := [] }
    store := { s.store with queue := [] }
    log := { s.log with waits := [] }
    turn := []
    faults := { s.faults with injection := match s.faults.injection with
      | some i => if i.checker = 6 then some i else none
      | none => none } }

/-- Outputs off for Cold Wait, a SHUTDOWN fault or power-fail: a round before its COMMIT, retests and captures end (05, Table
5.10; 07, R215; 08, R255). `detail` is the mode error's detail for the retest. -/
def outputsEnd (detail : Nat) (s : State) : State :=
  abandonRetest 0x0E detail (abortRound 0x0E 6 0 (endCapture (allOff s)))

/-- The shutdown line is asserted (09, Table 9.5; 15, R413). -/
def shutdownLine (s : State) : State := outputsEnd 2 { s with power := { s.power with lineOff := true } }

end Sys2Proof.Machine
end

