-- ==== Sys2Proof/Machine/FaultOps.lean ====
section
/-! DEFINITION. The fault collector (15): raises with their records, events and reactions, escalation, SAFE and SHUTDOWN, clear
conditions, the end of shadows, corrections of memory words, and injections. -/

namespace Sys2Proof.Machine

open Sys2Proof

/-- Severity of FAULT_RAISED for a class (Table 15.1). -/
def classSev (c : Nat) : Nat := match c with | 0 => 1 | 1 => 2 | _ => 3

/-- The next incident identifier (R421). -/
def newIncident (s : State) : Nat × State :=
  let n := s.faults.nextInc
  (n, { s with faults := { s.faults with nextInc := if n ≥ 0xFFFF then 1 else n + 1 } })

/-- A raise of `det` in die `die` comes from the injection (Table 15.9). -/
def Injection.causes (i : Injection) (det die : Nat) : Bool :=
  match i.checker with
  | 0 => det == 0x00
  | 1 => det == 0x01
  | 2 | 3 => det == 0x0C && die == i.shed + 1
  | 4 | 5 => det == 0x09 && die == i.shed + 1
  | _ => det == 0x03

/-- Detectors on the list of a shed's shadow (Table 15.6). -/
def shadowListed (det : Nat) : Bool := [0x09, 0x0A, 0x0E, 0x14].contains det

/-- FAULT_RAISED, or its note for the restarted firmware (14, R387). -/
def recordFault (det cls die inc : Nat) (s : State) : State :=
  if logging s then logX 0x0B01 (classSev cls) die 255 det cls inc s
  else { s with faults := { s.faults with unrecorded := s.faults.unrecorded ++ [(det, die, inc)] } }

/-- Checked commits that wait are refused with the state error (R412). -/
def refuseWaiting (s : State) : State :=
  let cs := s.scene.waiting
  forAll cs (fun c s => pushReply c.sess c.entry 0x0D 0 [] (returnPages c.sess c.pages s))
    { s with scene := { s.scene with waiting := [] } }

/-- A SAFE fault (R412): what has not been committed is refused. `round` says that the Stable scene is to be applied. -/
def enterSafe (round : Bool) (s : State) : State :=
  let s := match s.scene.round with
    | some r => if r.boot || r.safe then s else abortRound 0x0D 0 0 s
    | none => s
  let s := refuseWaiting s
  if round then { s with scene := { s.scene with safeWanted := true, safeTries := 0 } } else s

/-- The reaction of a detector (Table 15.2). That of OVERTEMP is Table 9.5's, and MRAM_UE's and STORE_INVALID's lie with the store. -/
def reaction (det die inc : Nat) (s : State) : State :=
  let k := die - 1
  match det with
  | 0x00 | 0x03 | 0x05 => warmReset 1 inc s
  | 0x04 => warmReset 3 inc s
  | 0x06 => resetEth 1 inc (resetEth 0 inc s)
  | 0x07 => broadcastFallback (enterSafe false { s with marks := { s.marks with running := false } })
  | 0x08 => { s with power := { s.power with osc := false } }
  | 0x09 =>
    let s := updLink k (fun l => { l with yard := { l.yard with fired := true } }) (startShadow (shedBlock k) inc s)
    loseShed k inc s
  | 0x0B | 0x0C | 0x0E | 0x0F => if die = 0 then s else shedReset k inc s
  | 0x17 => shutdownLine s
  | 0x18 =>
    let s := shutdownLine s
    if die = 0 then s else updShed k (fun d => { d with mode := .resetting, drive := { d.drive with off := true } }) (shedReset k inc s)
  | 0x19 => restartCrypto s
  | 0x1A | 0x1B | 0x1C => enterSafe false s
  | 0x1F => enterSafe true s
  | _ => s

/-- Raises of a detector within the escalation window (R414). -/
def recentRaises (s : State) (det : Nat) : List Nat :=
  (getDet s det).raises.filter fun t => s.now < t + yf s R.faultCfg 27 16 * sec

/-- A raise with its incident (R410, R414, R416). -/
def raiseAs (det die inc : Nat) (injected : Bool) (s : State) : State :=
  let raises := recentRaises s det ++ [s.now]
  let d := getDet s det
  let n := yf s R.faultCfg 31 28
  let esc := detClass det == 1 && !d.escalated && n ≠ 0 && raises.length ≥ n
  let first := effClass s det
  let s := setDet det { d with
    raised := true, cause := true, injected := injected, escalated := d.escalated || esc
    dies := BitVec.ofNat 8 (setBit d.dies.toNat die), inc := inc, raises := raises, order := s.faults.raiseN + 1 } s
  let s := { s with faults := { s.faults with raiseN := s.faults.raiseN + 1 } }
  let s := recordFault det first die inc s
  let s := if esc then recordFault det 2 die inc s else s
  let s := hostEvent 3 (det + effClass s det * 256) inc s
  let s := reaction det die inc s
  if effClass s det = 2 && detClass det = 1 then enterSafe true s else s

/-- A detector's condition occurs in die `die`, 0 for the yard (R416, R425, R426). -/
def raiseFault (det die : Nat) (s : State) : State :=
  if die ≠ 0 && shadowListed det && shedShadow s (die - 1) && effClass s det < 2 then
    addTrip (isShed (die - 1)) { code := 0x0B01, p1 := det, p2 := effClass s det, die := die, n := 1 } s
  else
    match s.faults.injection with
    | some i =>
      if i.causes det die then raiseAs det die i.inc true { s with faults := { s.faults with injection := none } }
      else let r := newIncident s; raiseAs det die r.1 false r.2
    | none => let r := newIncident s; raiseAs det die r.1 false r.2

/-- CAUSE as evaluated now. -/
def setCause (det : Nat) (c : Bool) (s : State) : State := setDet det { getDet s det with cause := c } s

/-! Corrections (R419). -/

/-- Corrected words of a memory: 0 SRAM, 1 MRAM, 2 a shed's memories. ECC_ST counts, ECC_CORRECTED is recorded. -/
def countEcc (mem n : Nat) (s : State) : State :=
  if n = 0 then s
  else
    let hi := 31 - 8 * mem
    let s := addReg yardDie R.eccSt hi (hi - 7) n s
    let sum := Table.get 0 s.faults.scrubCe mem + n
    let seq := s.log.nextSeq
    let s := log 0x0B04 0 mem sum s
    { s with faults := { s.faults with
        scrubCe := Table.put 0 s.faults.scrubCe mem (if s.log.nextSeq = seq then sum else 0) } }

/-- What holds an uncorrectable word group of the MRAM is invalid (Table 15.2, MRAM_UE): an item's copy, a firmware slot, an accounting
copy, a Logbook slot or a Tack Room slot. -/
def voidPlace (p : Nat) (s : State) : State :=
  let st := s.store
  if p < 64 then
    let x := Table.get NvItem.init st.items (p / 2)
    let y := if p % 2 = 0 then { x with a := none } else { x with b := none }
    { s with store := { st with items := Table.put NvItem.init st.items (p / 2) y } }
  else if p = 64 then { s with store := { st with slotA := { st.slotA with bad := true } } }
  else if p = 65 then { s with store := { st with slotB := { st.slotB with bad := true } } }
  else if p = 66 then { s with store := { st with accA := none } }
  else if p = 67 then { s with store := { st with accB := none } }
  else if p < 40000 then { s with log := { s.log with slots := Table.put LogRec.void s.log.slots (p - 100) LogRec.void } }
  else { s with log := { s.log with tack := Table.put Snapshot.void s.log.tack (p - 40000) Snapshot.void } }

/-- An uncorrectable word group of the MRAM: the reaction of MRAM_UE, with the warm reset when it held running firmware. -/
def mramUe (p : Nat) (s : State) : State :=
  let s := raiseFault 0x01 0 (voidPlace p s)
  if p = 64 + s.store.active && s.power.fw then warmReset 1 (getDet s 0x01).inc s else s

/-- A scrubber pass (R420, Table 15.5): its corrections, its rate, and the place of an uncorrectable word. -/
def scrub (mem die corrections : Nat) (bad : Option Nat) (s : State) : State :=
  let s := countEcc mem corrections s
  let s := if corrections > yf s R.faultCfg 15 8 then raiseFault 0x02 die s else setCause 0x02 false s
  match mem with
  | 0 =>
    let s := { s with faults := { s.faults with sramBad := bad.isSome } }
    -- a word of the window stays bad until it is written again (log entry 200)
    let s := match bad with
      | some w => if w < 131072 then { s with win := { s.win with bad := s.win.bad ++ [w] } } else s
      | none => s
    if bad.isSome then raiseFault 0x00 0 s else s
  | 1 =>
    let wait := if nvOpen s then 0 else s.faults.mramWait + corrections
    let s := addReg yardDie R.eccSt 7 0 (wait - 64) s
    let s := { s with faults := { s.faults with mramWait := min 64 wait, mramBad := bad.isSome } }
    match bad with
    | some p => mramUe p s
    | none => s
  | _ => if bad.isSome then shedEvent (die - 1) (.fault 0x0C) s else s

/-! Clearing (R427, R428). -/

/-- The shed has rejoined. -/
def rejoined (s : State) (k : Nat) : Bool :=
  decide ((getShed s k).mode = .joined) && !(getShed s k).resync && (getLink s k).trained

/-- Why a detector cannot be cleared in a die (Table 15.7), from the conditions of Table 15.2. A clock that FAULT_RAISE reports out of
band counts as back in band at the evaluation (log entry 22). -/
def clearReason (s : State) (det die : Nat) : Option Nat :=
  let k := die - 1
  let cause := fun (b : Bool) => if b then some 1 else none
  if det = 0x16 || det = 0x1C then some 4
  else if (match s.faults.injection with | some i => i.left > 0 && i.causes det die | none => false) then some 3
  else
    match det with
    | 0x00 => cause s.faults.sramBad
    | 0x01 => cause s.faults.mramBad
    | 0x02 | 0x0F | 0x15 | 0x1D | 0x1E | 0x1F => cause (getDet s det).cause
    | 0x07 => cause (!s.power.crystal || (present s).any fun k => !(getLink s k).trained)
    | 0x08 => cause (!s.power.osc)
    | 0x09 | 0x0B | 0x0C => if rejoined s k then none else some 2
    | 0x0A => cause ((getShed s k).goodMarks < 8)
    | 0x0D => cause ((getShed s k).drive.checked < 8)
    | 0x0E => if !rejoined s k then some 2 else cause (regf s k R.linkSt 8 8 == 0)
    | 0x10 => cause (s.therm.refBad.toNat.testBit die)
    | 0x11 => cause (s.therm.invalid.toNat.testBit die)
    | 0x12 | 0x13 => cause ((List.range 4).any fun n => regf s k (R.ntcCfg + n) 31 31 == 1 && !(getNtc (getShed s k) n).valid)
    | 0x14 => cause ((List.range 4).any fun g => regf s k (R.trimSt + g) 3 0 ≠ 0)
    | 0x17 => cause (match (getDet s det).raises.getLast? with | some t => s.now < t + 100 * ms | none => false)
    | 0x18 => if rejoined s k then none else some 2
    | 0x19 => cause (!s.faults.crypto)
    | 0x1A | 0x1B => cause (!s.power.stable)
    | _ => none

/-- What follows when the last SAFE fault has gone (R428): sheds that were sent FALLBACK rejoin, and what the SAFE round replaced is
due again. A SAFE round without its COMMIT is not made any more. -/
def endSafe (s : State) : State :=
  let s := match s.scene.round with
    | some r => if r.safe then abortRound 0x0D 0 0 { s with scene := { s.scene with safeTries := 0 } } else s
    | none => s
  let s := { s with scene := { s.scene with
    safeWanted := false, safeTries := 0, restoreDue := s.scene.replaced.isSome } }
  forAll ((present s).filter fun k => (getShed s k).sentFallback && decide ((getShed s k).mode = .fallback)) (fun k s =>
    reloadShed k (updShed k (fun d => { d with resync := true }) s)) s

/-- What follows when no SHUTDOWN fault is left (R413): outputs may resume at the first mark at least 1 ms later. -/
def endShutdown (s : State) : State :=
  if inCold s then s
  else { s with power := { s.power with lineOff := false, resumeAt := some (s.now + ms) } }

/-- Die bits of a detector clear; RAISED and ESCALATED follow the last (R427). LINK_FAIL's clear also clears LINK_ST.FAIL (01, Table
1.7), and marks run again when CLK_XTAL clears. -/
def dropFault (det : Nat) (dies : List Nat) (s : State) : State :=
  let safe := safeOn s
  let shut := shutdownOn s
  let d := getDet s det
  let left := dies.foldl clrBit d.dies.toNat
  let s := setDet det { d with
    dies := BitVec.ofNat 8 left, raised := left ≠ 0, escalated := d.escalated && left ≠ 0, cause := d.cause && left ≠ 0
    raises := if left = 0 then [] else d.raises } s
  let s := if det = 0x09 then forAll (dies.filter (· ≠ 0)) (fun i s => setRegf (i - 1) R.linkSt 9 9 0 s) s else s
  let s := if det = 0x07 && left = 0 then
      { s with marks := { s.marks with running := true, at_ := s.now, sent := 0 } } else s
  let s := if safe && !safeOn s then endSafe s else s
  if shut && !shutdownOn s then endShutdown s else s

/-! Shadows (R424, R425). -/

/-- The record of one kind that tripped. -/
def tripRecord (inc : Nat) (t : Trip) (s : State) : State :=
  let sev := if t.code = 0x0B01 then classSev t.p2 else codeSev t.code
  if logging s then acceptRec t.code sev t.die 255 t.p1 t.p2 inc t.n 48 s else s

/-- The shadow of a block ends 5 ms after the block resumed. -/
def endShadow (b : ShadowBlock) (s : State) : State :=
  match shadowOf s b with
  | none => s
  | some x =>
    match x.resumed with
    | none => s
    | some t =>
      if s.now < t + 5 * ms then s
      else forAll x.trips (tripRecord x.inc)
        { s with faults := { s.faults with shadows := s.faults.shadows.filter fun y => y.block ≠ b } }

/-! Injections (R431, R432). -/

/-- An armed injection that has not acted 1 s after its acceptance is cancelled. -/
def injectionExpired (s : State) : State :=
  match s.faults.injection with
  | none => s
  | some i =>
    if i.left = 0 || s.now < i.at_ + sec then s
    else logX 0x0B05 0 (if 2 ≤ i.checker && i.checker ≤ 5 then i.shed + 1 else 0) 255 i.checker 0 i.inc
      { s with faults := { s.faults with injection := none } }

/-- The firmware reads the SRAM test word (Table 15.9, code 0). -/
def readTestWord (s : State) : State :=
  match s.faults.injection with
  | some i =>
    if i.checker ≠ 0 || !s.power.fw then s
    else if i.bits = 1 then countEcc 0 1 { s with faults := { s.faults with injection := none } }
    else raiseFault 0x00 0 s
  | none => s

/-- The error state of a link packet whose header word an injection spoils, and what it leaves of the injection (Table 15.9, codes 4 and 5). -/
def spoil (k : Nat) (atYard : Bool) (err : PacketErr) (s : State) : PacketErr × State :=
  match s.faults.injection with
  | some i =>
    if i.shed = k && i.checker = (if atYard then 5 else 4) then
      if i.left = 0 then (err, { s with faults := { s.faults with injection := none } })
      else (if i.bits = 1 then { err with fixed := err.fixed + 1 } else { err with bad := err.bad + 1 },
            { s with faults := { s.faults with injection := some { i with left := i.left - 1 } } })
    else (err, s)
  | none => (err, s)

/-- An INJECT command acts in a shed (Table 15.9, codes 2 and 3): a word of the front buffer. -/
def actInject (k checker bits target : Nat) (s : State) : State :=
  let a := if checker = 2 then A.value + target / 4 else A.prog + 1024 * target
  if bits = 1 then countEcc 2 1 { s with faults := { s.faults with injection := none } }
  else
    let s := updShed k (fun d => { d with badWords := d.badWords ++ [(true, a)] }) s
    { s with faults := { s.faults with injection := s.faults.injection.map fun i => { i with left := 0 } } }

end Sys2Proof.Machine
end

