-- ==== Sys2Proof/Machine/TrigOps.lean ====
section
/-! DEFINITION. Triggers and pattern controls in the yard (06, R188 to R193, R481). -/

namespace Sys2Proof.Machine

open Sys2Proof

/-- Trigger entry `n` of the area in force (06, Table 6.8). -/
def trigEntry (s : State) (n : Nat) : Nat := ofLe (Table.range 0 s.pat.trig (16 * n) 16)

def trigValid (e : Nat) : Bool := e.testBit 5
def trigImm (e : Nat) : Bool := e.testBit 4
def trigAct (e : Nat) : PatAct := match e / 64 % 4 with | 0 => .start | 1 => .stop | _ => .toggle
def trigEngines (e : Nat) : List Nat := (List.range 112).filter fun i => e.testBit (16 + i)

/-- WAKE binding of pin `p` (06, Table 6.9): bytes 1,024 on. -/
def wakeBinding (s : State) (p : Nat) : Nat := ofLe (Table.range 0 s.pat.trig (1024 + 4 * p) 4)

/-- PK_TRG_EN: the Paddock events that raise their trigger (06, Table 6.1; 13). -/
def pkTrgEn (s : State) : Nat := ofLe (Table.range 0 s.pat.trig 1040 8)

/-- Control `c` supersedes control `x` of the same engine: both name one mark, and neither is an engine reset, which acts beside them (R184,
R186). -/
def PatCtl.replaces? (c x : PatCtl) : Bool :=
  c.act ≠ .reset && x.act ≠ .reset && c.engine == x.engine && c.mark == x.mark

/-- What stands for control `c` where it supersedes those of `l`: it counts them (R184). -/
def PatCtl.supersede (c : PatCtl) (l : List PatCtl) : PatCtl := { c with superseded := sumN ((l.filter c.replaces?).map fun x => x.superseded + 1) }

/-- The controls kept for rejoins, with a new one of global engine `g` (R184, R193). -/
def keepControl (g : Nat) (c : PatCtl) (l : List (Nat × PatCtl)) : List (Nat × PatCtl) :=
  let mine := fun (p : Nat × PatCtl) => p.1 == g && c.replaces? p.2
  l.filter (fun p => !mine p) ++ [(g, c.supersede ((l.filter mine).map (·.2)))]

/-- A control goes to its shed in place of those that it supersedes and that have not been sent (R184). -/
def sendPatCtl (k : Nat) (c : PatCtl) (s : State) : State :=
  let e := reclaim s.now (getLink s k).yard
  let ctl := fun (p : Packet) => match p with | .command (.patCtl x) => some x | _ => none
  let old := e.waiting.filterMap ctl
  let e' := { e with waiting := e.waiting.filter fun p => !(match ctl p with | some x => c.replaces? x | none => false) }
  command k (.patCtl (c.supersede old)) (setEnd k true e' s)

/-- One pattern control (R188, R193, R194): kept for rejoins, and sent to the engine's shed unless the shed shows its fallback image
without a reload under way. -/
def sendControl (g : Nat) (act : PatAct) (imm : Bool) (m : Word) (s : State) : State :=
  if !isPresent s (g / 16) then s
  else
    let c : PatCtl := { engine := g % 16, act := act, immediate := imm, mark := m, superseded := 0 }
    let s := { s with pat := { s.pat with since := keepControl g c s.pat.since } }
    let d := getShed s (g / 16)
    if decide (d.mode = .fallback) && !d.resync || !(getLink s (g / 16)).trained then s else sendPatCtl (g / 16) c s

/-- Controls for a list of global engines. -/
def sendControls (gs : List Nat) (act : PatAct) (imm : Bool) (m : Word) (s : State) : State :=
  forAll gs (fun g s => sendControl g act imm m s) s

/-- Mark of every source but EMIT (R188, Table 6.10). -/
def controlMark (s : State) : Word := markIn s (200 * us)

/-- Trigger `n` is raised for mark `m` (R188, R481). While a SAFE fault is in force no control is sent (15, R412). -/
def raiseTrigger (n : Nat) (m : Word) (s : State) : State :=
  let e := trigEntry s n
  if !trigValid e then setRegf yardDie R.trgSt 5 0 n (bumpReg yardDie R.trgSt 31 16 s)
  else if safeOn s then s
  else sendControls (trigEngines e) (trigAct e) (trigImm e) m s

end Sys2Proof.Machine
end

