-- ==== Sys2Proof/Machine/ThermOps.lean ====
section
/-! DEFINITION. Housekeeping rounds, thresholds and bands, the derate codes, the governor's decision, shutdown and Cold Wait (07, R220
to R223; 09). Temperatures in 1/16 K of °C, power in mW. -/

namespace Sys2Proof.Machine

open Sys2Proof

/-- Round period in ns (R258, R274). -/
def roundPeriod (s : State) : Nat :=
  4 * ms * ((if bandOn s then tf s (R.bandTab + band s) 8 5 else tf s R.hkCfg 31 28) + 1)

def warnT (s : State) : Int := codeTemp (tf s R.thermCfg 31 24)
def throttleT (s : State) : Int := codeTemp (tf s R.thermCfg 23 16)
def shutdownT (s : State) : Int := codeTemp (tf s R.thermCfg 15 8)
def warnHys (s : State) : Int := 16 * (tf s R.thermHys 31 27 : Nat)
def throttleHys (s : State) : Int := 16 * (tf s R.thermHys 26 22 : Nat)
def shutdownHys (s : State) : Int := 16 * (tf s R.thermHys 21 17 : Nat)

/-- What a die counts at: THROTTLE when its readings of the round are invalid or it has never given one, else its last valid reading
(R260). -/
def dieCounts (s : State) (i : Nat) : Int :=
  if s.therm.badNow.toNat.testBit i || !s.therm.everSeen.toNat.testBit i then throttleT s else Table.get 0 s.therm.dies i

/-- Tj_max and the hottest die, the lowest number on a tie (R260). -/
def tjMax (s : State) : Int × Nat :=
  (List.range (nSheds s)).foldl (fun a k => if a.1 < dieCounts s (k + 1) then (dieCounts s (k + 1), k + 1) else a)
    (dieCounts s 0, 0)

/-- TJMAX code of the last evaluation. -/
def tjCode (s : State) : Nat := yf s R.thermSt 31 20

/-! The armed record (R268; 14, R402). -/

/-- The context of a THERM_SHUTDOWN, without SEQ, taken now. -/
def shutdownRec (s : State) (die : Nat) : LogRec :=
  { seq := 0, code := 0x0503, sev := 3, die := die, sess := 255, opS := s.log.opS, cyc := s.log.cycles
    flags := BitVec.ofNat 8 (cycleFlags s + 8), wall := s.log.wall, p1 := die, p2 := tjCode s, inc := 0, sup := 0 }

/-- The record is written without its commit word into the next slot of the Tack Room, while no write has to wait (R271, R273; 02, R86). -/
def armRecord (s : State) : State :=
  if writesWait s then s
  else
    let i := tackSlot s.log.tackNext
    let x : Snapshot := { ev := shutdownRec s (tjMax s).2, body := snapshotBody s (fwVersion s), logSeq := 0, tackSeq := 0 }
    setRegf yardDie R.thermSt 8 8 1 { s with
      log := { s.log with tack := Table.put Snapshot.void s.log.tack i x }
      therm := { s.therm with armed := some i, armedAt := s.now } }

/-- The record is disarmed; its slot stays void. -/
def disarm (s : State) : State :=
  match s.therm.armed with
  | none => s
  | some i => setRegf yardDie R.thermSt 8 8 0 { s with
      log := { s.log with tack := Table.put Snapshot.void s.log.tack i Snapshot.void }
      therm := { s.therm with armed := none } }

/-! Evaluation of a round. -/

/-- WARN (R268). -/
def evalWarn (tj : Int) (die : Nat) (s : State) : State :=
  if tj ≥ warnT s then
    if s.therm.warned then s
    else
      let s := { s with therm := { s.therm with warned := true } }
      armRecord (hostEvent 2 0 (tjCode s) (log 0x0501 1 (tjCode s) die s))
  else if tj < warnT s - warnHys s then disarm { s with therm := { s.therm with warned := false } }
  else s

/-- A change of STEPS (R269). -/
def setSteps (n : Nat) (s : State) : State :=
  let s := setRegf yardDie R.thermSt 15 12 n s
  log 0x0502 0 n (limitAt s n) s

/-- Throttle steps (R269). -/
def evalThrottle (tj : Int) (s : State) : State :=
  let n := steps s
  if tj ≥ throttleT s then
    let up := n < 15 && (s.therm.fresh || s.therm.lastUp + 250 * ms ≤ s.now)
    let s := { s with therm := { s.therm with fresh := false, upTimer := none, lastUp := if up then s.now else s.therm.lastUp } }
    if up then setSteps (n + 1) s else s
  else if tj < throttleT s - throttleHys s then
    let s := { s with therm := { s.therm with fresh := true } }
    if n = 0 then s
    else
      match s.therm.upTimer with
      | none => { s with therm := { s.therm with upTimer := some s.now } }
      | some t =>
        if max t s.therm.lastDown + sec ≤ s.now then
          setSteps (n - 1) { s with therm := { s.therm with lastDown := s.now } }
        else s
  else { s with therm := { s.therm with upTimer := none } }

/-- Upper boundary of band `b` (R274). -/
def bandTop (s : State) (b : Nat) : Int :=
  codeTemp (match b with | 0 => tf s R.bandBnd 31 24 | 1 => tf s R.bandBnd 23 16 | _ => tf s R.bandBnd 15 8)

/-- Band of a temperature without hysteresis. -/
def bandOf (s : State) (tj : Int) : Nat := bit01 (tj ≥ bandTop s 0) + bit01 (tj ≥ bandTop s 1) + bit01 (tj ≥ bandTop s 2)

/-- The band that follows from band `b`: left upwards at the boundary, downwards 3 K below it. -/
def nextBand (s : State) (b : Nat) (tj : Int) : Nat :=
  let up := (List.range 3).filter fun i => b ≤ i && tj ≥ bandTop s i
  let down := (List.range 3).filter fun i => i < b && tj < bandTop s i - 48
  if !up.isEmpty then maxN up + 1 else if down.isEmpty then b else down.headD 0

/-- The words of a band's fields that take effect under 03 R114, sent before the mark at which they do (R274). -/
def sendBand (s : State) : State :=
  forAll (present s) (fun k s => sendWrites k ([R.shedCfg, R.dimCfg].map fun n => (A.cfg + n, regWord (effReg s k n))) s) s

/-- A change of P and N to the values now in effect is named to every shed for mark `m` (04, R118). -/
def nameTiming (m : Word) (s : State) : State :=
  let w := effReg s 0 R.frameCfg
  let s := { s with marks := { s.marks with change := some (m, cfgP w, cfgN w) } }
  forAll (present s) (fun k s => sendWrites k [(A.change, BitVec.ofNat 64 (w.toNat + m.toNat * 2 ^ 32))] s) s

/-- The fields of the band in force take effect (R274): its period by a named change of P and N, its other fields from the same
mark. While a round holds WRITEs, the mark is named after it (05, R156). -/
def applyBand (s : State) : State :=
  if writesHeld s then { s with marks := { s.marks with nameDue := true } }
  else
    let m := markIn s ms
    let s := nameTiming m { s with marks := { s.marks with bandPend := some (m, band s), nameDue := false } }
    if m = s.marks.count + 1 then sendBand s else s

/-- A change of band (R274). -/
def changeBand (b : Nat) (s : State) : State :=
  let old := band s
  applyBand (log 0x0505 0 old b (setRegf yardDie R.thermSt 11 10 b s))

/-- The sheds work with other timing fields than the registers now give, since a register of the bands was written (R275). -/
def timingStale (s : State) : Bool :=
  let w := effReg s 0 R.frameCfg
  let next := match s.marks.change with | some (_, p, n) => (p, n) | none => (s.marks.perP, s.marks.perN)
  s.power.stable && !s.marks.boot && (decide (next ≠ (cfgP w, cfgN w)) || (present s).any fun k =>
    let d := getShed s k
    decide (d.mode = .joined) && !d.resync && (getLink s k).trained
      && [R.shedCfg, R.dimCfg].any fun n => (Table.find? d.cfgIn n).getD (regInit n) ≠ effReg s k n)

/-- The band at a round (R274, R275). -/
def evalBand (tj : Int) (s : State) : State :=
  let b := if bandOn s then nextBand s (band s) tj else band s
  if b ≠ band s then changeBand b s else if timingStale s then applyBand s else s

/-- Automatic exits of the last hour (R272). -/
def recentExits (s : State) : List Nat := s.power.autoExits.filter fun t => s.now < t + 3600 * sec

/-- Both conditions for leaving Cold Wait (R272). -/
def mayExit (tj : Int) (s : State) : Bool := tj < shutdownT s - shutdownHys s && s.power.tripped.toNat = 0

/-- Cold Wait ends (R272). -/
def exitCold (auto : Bool) (s : State) : State :=
  let was := s.power.coldAt
  let s := setRegf yardDie R.rstCause 8 8 0 (setRegf yardDie R.thermSt 9 9 0 s)
  let exits := if auto then recentExits s ++ [s.now] else recentExits s
  let s := { s with power := { s.power with mode := .run, hotTrip := false, autoExits := exits } }
  let s := setRegf yardDie R.thermSt 6 4 (min 7 exits.length) s
  let s := dropFault 0x16 (List.range 8) s
  let s := if shutdownOn s then s else endShutdown s
  let s := log 0x0504 0 ((s.now - was) / sec) (bit01 (!auto)) s
  hostEvent 5 0 2 (hostEvent 2 2 (tjCode s) s)

/-- The device leaves Cold Wait by itself (R272). -/
def evalCold (tj : Int) (s : State) : State :=
  let n := tf s R.thermCtl 30 28
  let s := setRegf yardDie R.thermSt 6 4 (min 7 (recentExits s).length) s
  if inCold s && s.power.stable && mayExit tj s && tf s R.thermCtl 31 31 == 1 && (n = 0 || (recentExits s).length < n) then
    exitCold true s
  else s

/-- Comparators release below their threshold, as the round's readings show it. -/
def evalTripped (s : State) : State :=
  let keep := (List.range 8).foldl (fun v i =>
    if !s.therm.badNow.toNat.testBit i && s.therm.reported.contains i && Table.get 0 s.therm.dies i < shutdownT s then clrBit v i
    else v) s.power.tripped.toNat
  { s with power := { s.power with tripped := BitVec.ofNat 8 keep } }

/-- Tj_max is evaluated (R260, R268, R269, R272, R274). -/
def evalRound (s : State) : State :=
  let s := evalTripped s
  let (tj, die) := tjMax s
  let s := setRegf yardDie R.thermSt 31 20 (tempCode 12 tj) (setRegf yardDie R.thermSt 19 16 die s)
  evalBand tj (evalCold tj (evalThrottle tj (evalWarn tj die s)))

/-- The NV write window by the yard's own sensors (R273). A firmware install ends when it closes. -/
def evalWindow (s : State) : State :=
  let ts := [s.therm.yardCore, s.therm.yardMem, s.therm.yardNet]
  let lo := codeTemp (tf s R.nvwCfg 31 24)
  let hi := codeTemp (tf s R.nvwCfg 23 16)
  let m : Int := if nvOpen s then 0 else 32
  let open_ := tf s R.thermCtl 27 27 == 0 || ts.all fun t => lo + m ≤ t && t ≤ hi - m
  let s := setRegf yardDie R.thermSt 7 7 (bit01 open_) s
  if open_ then s else abandonInstall s

/-! Derating (07, R220 to R223). -/

/-- Sensor input that a channel names, if it names one. -/
def inputOf (s : State) (k c : Nat) : Option Nat :=
  let e := ((reg s k (R.ltMap + c / 4)).toNat >>> (8 * (c % 4))) % 256
  if e.testBit 5 then some (e / 8 % 4) else none

/-- Function and sensor input of every member site of a shed. -/
def memberInputs (s : State) (k : Nat) : List (Nat × Nat × Nat) :=
  ((litSites (applied s k)).filterMap fun i =>
    (inputOf s k (i % 128)).map fun n => (saFn (siteAttr (applied s k) i), k, n)).eraseDups

/-- Board temperature that the yard holds of an input; TFAIL where it has none that is valid. -/
def boardTempOf (s : State) (k n : Nat) : Int :=
  match (Table.get [] s.therm.boards k)[n]? with
  | some (t, true) => t
  | _ => codeTemp (regf s k R.ltCfg 31 24)

/-- Target code Dt (R221). -/
def derateTarget (m : Img) (f : Nat) (t : Option Int) : Nat :=
  match t with
  | none => 16384
  | some t =>
    let above := (t - 16 * (fnKnee m f : Nat)).toNat
    if above = 0 then 16384 else max (16384 * fnFloor m f / 100) (16384 - 16384 * fnSlope m f * above / 6400)

/-- Codes after a round (R222, R223): new codes, and a DERATE word for each shed that has sites of a function that changed. -/
def derateRound (s : State) : State :=
  let ins := (present s).flatMap (memberInputs s)
  let hottest := fun (f : Nat) => (ins.filter fun x => x.1 == f).foldl (fun (a : Option Int) x =>
    let t := boardTempOf s x.2.1 x.2.2
    some (match a with | some b => max b t | none => t)) none
  let new := (List.range 256).filterMap fun f =>
    let d := 16384 - (getFn s f).derate
    let dt := derateTarget (fnMap s) f (hottest f)
    -- a function without a sensor has no derating (R220)
    let d' := if dt < d || s.therm.derateStart || (hottest f).isNone then dt else min dt (d + 82)
    if d' = d then none else some (f, d')
  let s := forAll new (fun p s => updFn p.1 (fun x => { x with derate := 16384 - p.2 }) s)
    { s with therm := { s.therm with derateStart := false } }
  forAll (present s) (fun k s =>
    let mine := (litSites (applied s k)).map fun i => saFn (siteAttr (applied s k) i)
    let codes := new.filter fun p => mine.contains p.1
    if codes.isEmpty then s else command k (.derate (s.marks.count + 3) codes) s) s

/-! The governor (R264, R265). -/

/-- Sum of the sheds' tables of 16 entries. -/
def sumTables (l : List (List Nat)) : List Nat := (List.range 16).map fun j => sumN (l.map fun t => t.getD j 0)

/-- Decision for the coming frame, sent with each shed's share; a change of STEPS acts from the next mark's (R269). -/
def governDecision (s : State) : State :=
  let tab := fun k => Table.get ([], [], 0) s.therm.tables k
  let st := sumTables ((present s).map fun k => (tab k).1)
  let rg := sumTables ((present s).map fun k => (tab k).2.1)
  let b := sumN ((present s).map fun k => (tab k).2.2)
  let a := allowanceAt s s.therm.govSteps
  let (gs, gr, short) := decideFactors st rg b a (yf s R.govCtl 23 16)
  let s := setRegf yardDie R.govSt 31 19 gs (setRegf yardDie R.govSt 18 6 gr s)
  let s := if short then
      let was := (getDet s 0x15).cause
      let s := setRegf yardDie R.govSt 5 5 1 s
      if was then s else raiseFault 0x15 0 (log 0x0506 1 b (toBits 32 a) s)
    else setCause 0x15 false s
  let x := fun k => (tab k).2.2 + lossBound (tab k).1 gs + lossBound (tab k).2.1 gr
  let total := sumN ((present s).map x)
  let share := fun k =>
    if a < 0 then 0 else if total = 0 then a.toNat / max (nSheds s) 1 else a.toNat * x k / total
  forAll (present s) (fun k s => command k (.govern gs gr (share k)) s) s

/-! Shutdown (R270, R271). -/

/-- A record and its snapshot are committed by hot writes; their check is due (R271). -/
def hotCommit (x : Snapshot) (s : State) : State :=
  let s := tackCommit x s
  { s with therm := { s.therm with hotDue := true } }

/-- The flags of a hot write, with HOT_DEFERRED where it was held back (14, Table 14.2). -/
def hotFlags (deferred : Bool) : Nat := 8 + bit01 deferred * 4

/-- The shutdown record is committed: the armed one under its SEQ, or the whole record (14, R402). -/
def commitShutdown (deferred : Bool) (s : State) : State :=
  let mine := s.log.tackPend.filter fun p => p.1.ev.code == 0x0503
  let rest := s.log.tackPend.filter fun p => p.1.ev.code ≠ 0x0503
  match mine with
  | [] => s
  | (x, _) :: _ =>
    let x := { x with ev := { x.ev with flags := BitVec.ofNat 8 (x.ev.flags.toNat ||| hotFlags deferred) } }
    let s := { s with log := { s.log with tackPend := rest }, therm := { s.therm with armed := none, hotDeferred := false } }
    setRegf yardDie R.thermSt 8 8 0 (hotCommit x s)

/-- THERM_SHUTDOWN: its record, and its snapshot pending, from the armed context where there is one (14, R402). -/
def logShutdown (die : Nat) (s : State) : State :=
  let ctx := s.therm.armed.map fun i => Table.get Snapshot.void s.log.tack i
  let codes := s.log.tackCodes
  -- the shutdown's snapshot is not held back by an earlier one when a record is armed
  let s := if ctx.isSome then { s with log := { s.log with tackCodes := Table.drop codes 0x0503 } } else s
  let s := logX 0x0503 3 die 255 die (tjCode s) 0 s
  match ctx with
  | none => s
  | some c => { s with log := { s.log with tackPend := s.log.tackPend.map fun p =>
      if p.1.ev.code = 0x0503 then ({ p.1 with ev := c.ev, body := c.body }, p.2) else p } }

/-- Code of the mode in events (17, Table 17.6). -/
def eventMode (m : Mode) : Nat := match m with | .update => 1 | .coldWait => 2 | .nightWatch => 3 | _ => 0

/-- The device enters Cold Wait (R60, R61; Table 9.5). -/
def enterCold (s : State) : State :=
  let was := eventMode s.power.mode
  let s := setRegf yardDie R.rstCause 8 8 1 (setRegf yardDie R.thermSt 9 9 1 (abandonInstall s))
  let s := { s with power := { s.power with mode := .coldWait, coldAt := s.now, resumeAt := none } }
  hostEvent 5 2 was s

/-- A comparator trips (R270, R271, Table 9.5). -/
def overtemp (die : Nat) (s : State) : State :=
  let s := { s with power := { s.power with
    tripped := BitVec.ofNat 8 (setBit s.power.tripped.toNat die), hotTrip := true } }
  let s := shutdownLine s
  let s := if inCold s then s else enterCold s
  let s := raiseFault 0x16 die (logShutdown die s)
  let s := hostEvent 2 1 (tjCode s) s
  if yardHot s then { s with therm := { s.therm with hotDeferred := true } } else commitShutdown false s

end Sys2Proof.Machine
end

