-- ==== Sys2Proof/Machine/Nv.lean ====
section
/-! DEFINITION. Two-copy items of the MRAM stores (16, R434 to R438): which copy is newer, how an item is written, and the queue of
writes (R437). -/

namespace Sys2Proof.Machine

open Sys2Proof

def setItem (i : Nat) (x : NvItem) (s : State) : State :=
  { s with store := { s.store with items := Table.put NvItem.init s.store.items i x } }

/-- The copy that a write takes as target, 0 or 1, and its COUNT (R435, steps 1 and 5). -/
def NvItem.target (x : NvItem) : Nat × Nat :=
  match x.copies with
  | [] => (0, 1)
  | [(i, c)] => (1 - i, seqNext c.count)
  | (i, c) :: _ => (1 - i, seqNext c.count)

/-- The target copy takes a value. -/
def NvItem.putCopy (x : NvItem) (i : Nat) (c : Option NvCopy) : NvItem := if i = 0 then { x with a := c } else { x with b := c }

/-- A whole write of an item (R435). -/
def writeItem (i : Nat) (body : List Byte) (s : State) : State :=
  let x := getItem s i
  let t := x.target
  setItem i (x.putCopy t.1 (some { count := t.2, body := body, ok := true })) s

/-- A write whose verify failed twice: the target stays void (R435, step 4). -/
def voidItem (i : Nat) (s : State) : State :=
  let x := getItem s i
  setItem i (x.putCopy x.target.1 none) s

/-- A command's write joins the queue (R437). -/
def queueWrite (w : NvWrite) (s : State) : State := { s with store := { s.store with queue := s.store.queue ++ [w] } }

/-- A write made by a command: the item's body, and what follows when it is committed. -/
def nvWrite (item : Nat) (body : List Byte) (n : Nat) (e : Entry) (reply : List Byte) (pages : List Nat)
    (logs : List (Nat × Nat × Nat)) : NvWrite :=
  { item := item, body := body, sess := n, entry := e.id, tag := e.tag, opcode := e.opcode, reply := reply, pages := pages, logs := logs, cal := [] }

/-- Shed `k` takes its calibration (07, R207, R216). -/
def sendCal (k : Nat) (l : List Nat) (s : State) : State := sendWrites k (calWords s k l) s

/-- What a committed item changes beside the store: a shed takes the calibration records written, changed or not (07, R210, R216). -/
def itemWritten (i : Nat) (sites : List Nat) (s : State) : State :=
  if N.cal 0 ≤ i && isPresent s (i - N.cal 0) then sendCal (i - N.cal 0) sites s else s

/-- Writes may be made now: the window is open and no power-fail holds them back (R437; 02, R86). -/
def mayWrite (s : State) : Bool := !writesWait s && s.power.fw

/-- The write at the head of the queue, in its turn (R435, R437). `verifyOk` says that no word group differs a second time. -/
def nvTurn (verifyOk : Bool) (s : State) : State :=
  match s.store.queue with
  | [] => s
  | w :: rest =>
    if !mayWrite s then s
    else
      let s := { s with store := { s.store with queue := rest } }
      let s := returnPages w.sess w.pages s
      if verifyOk then
        let s := itemWritten w.item w.cal (setCause 0x1D false (writeItem w.item w.body s))
        let s := forAll w.logs (fun l s => logX l.1 (codeSev l.1) 0 w.sess l.2.1 l.2.2 0 s) s
        pushReply w.sess w.entry 0 0 w.reply s
      else raiseFault 0x1D 0 (pushReply w.sess w.entry 0x0F 0 [] (voidItem w.item s))

/-- The queue holds a write of item `i`. -/
def writing (s : State) (i : Nat) : Bool := s.store.queue.any fun w => w.item == i

end Sys2Proof.Machine
end

