-- ==== Sys2Proof/Machine/SceneImage.lean ====
section
/-! DEFINITION. Scene images (05, Tables 5.11 and 5.12, R165; 17, R456): the sections of an image, what a FULL image makes of every
shed, its register blocks and its trigger area; and the Stable-scene loader (02, R52 to R57; 05, R167; 16, R438). -/

namespace Sys2Proof.Machine

open Sys2Proof

/-- Section entries: type, shed, offset, length. -/
def sections (p : List Byte) : List (Nat × Nat × Nat × Nat) :=
  (List.range (u8 p 9)).map fun i => let o := 64 + 12 * i; (u16 p o, u8 p (o + 2), u32 p (o + 4), u32 p (o + 8))

/-- Body of a section. -/
def sectionBody (p : List Byte) (x : Nat × Nat × Nat × Nat) : List Byte := slice p x.2.2.1 x.2.2.2

/-- Words put into an image from address `a` on. -/
def putWords (a : Nat) (ws : List DWord) (m : Img) : Img := ws.zipIdx.foldl (fun m w => setIw (a + w.2) w.1 m) m

/-- The low bytes of four-byte records. -/
def lowBytes : List Byte → List Byte
  | a :: _ :: _ :: _ :: r => a :: lowBytes r
  | _ => []

/-- Words of a section of one shed, by its type; none for the package-wide ones. -/
def sectionPlace (type : Nat) (body : List Byte) : Option (Nat × List DWord) :=
  match type with
  | 0x0002 => some (A.dot, words64 (lowBytes body))
  | 0x0003 => some (A.attr, words64 body)
  | 0x0004 => some (A.value, words64 body)
  | 0x0005 => some (A.fallback, words64 body)
  | _ => none

/-- Engine records of a pattern section: global engine and words (06, R200). -/
def engineRecords (body : List Byte) : List (Nat × List DWord) :=
  (List.range (u32 body 1048)).map fun i => let o := 1052 + 804 * i; (u16 body o, words64 (slice body (o + 4) 800))

/-- Image of shed `k` in a FULL image (R165). -/
def fullImage (p : List Byte) (k : Nat) : Img :=
  (sections p).foldl (fun m x =>
    let b := sectionBody p x
    if x.1 = 0x0001 then putWords A.fn (words64 b) m
    else if x.1 = 0x0007 then ((engineRecords b).filter fun r => r.1 / 16 == k).foldl (fun m r => putWords (A.prog + 1024 * (r.1 % 16)) r.2 m) m
    else if x.2.1 ≠ k then m
    else match sectionPlace x.1 b with
      | some (a, ws) => putWords a ws m
      | none => m) []

/-- Trigger area of an image (06, R200). -/
def imageTrig (p : List Byte) : List Byte :=
  match (sections p).find? fun x => x.1 == 0x0007 with
  | some x => slice (sectionBody p x) 0 1048
  | none => []

/-- Entries of a register block: register, SHED, reserved byte, value (17, R456). -/
def blockEntries (b : List Byte) : List (Nat × Nat × Nat × Word) :=
  (List.range (b.length / 8)).map fun i => let o := 8 * i; (u16 b o, u8 b (o + 2), u8 b (o + 3), BitVec.ofNat 32 (u32 b (o + 4)))

/-- An entry of a register block has a reserved field that is not zero (00, R15; 03, R115). -/
def entryRsvd (e : Nat × Nat × Nat × Word) : Bool := e.2.2.1 ≠ 0 || valueRsvd (e.1, e.2.2.2)

/-- Entries applied to a register file: RW fields only, in order (R456). -/
def applyEntries (l : List (Nat × Nat × Nat × Word)) (t : Table Word) : Table Word :=
  l.foldl (fun t e =>
    match regRow e.1 with
    | some r =>
      let w := rget t e.2.1 e.1
      let rw := BitVec.ofNat 32 r.rw
      Table.put (regInit e.1) t (regKey e.2.1 e.1) ((w &&& ~~~rw) ||| (e.2.2.2 &&& rw))
    | none => t) t

/-- A register block applied to a register file. -/
def applyBlock (b : List Byte) (t : Table Word) : Table Word := applyEntries (blockEntries b) t

/-- Register blocks of an image. -/
def imageBlocks (p : List Byte) : List (List Byte) := ((sections p).filter fun x => x.1 == 0x0006).map (sectionBody p)

/-- The register file with every RW field at its factory value. -/
def factoryRegs (t : Table Word) : Table Word :=
  t.filterMap fun p =>
    match regRow (p.1 % 65536) with
    | some r =>
      let rw := BitVec.ofNat 32 r.rw
      let w := (p.2 &&& ~~~rw) ||| (BitVec.ofNat 32 r.init &&& rw)
      if w = regInit (p.1 % 65536) then none else some (p.1, w)
    | none => some p

/-- An image that the loader may apply: its magic and its VARIANT (R167). -/
def imageFits (s : State) (p : List Byte) : Bool :=
  u32 p 0 == 0x4E43535A && (u8 p 8 == 0 || u8 p 8 == s.variant.code)

/-- What the loader selects (16, R438; 03, R115): the register file, the Stable scene with the number of its copy, and whether the
registers were built without a register copy. Without a Stable scene the registers that a shed takes have their factory values (02,
R56; log entry 187). -/
def selectStores (s : State) : Table Word × Option (Nat × List Byte) × Bool :=
  let base := factoryRegs s.regs
  let reg := pickCopy s N.regs fun b => !(blockEntries b).any entryRsvd && !badConfig (nSheds s) (applyBlock b base)
  let t := match reg with | some (_, b) => applyBlock b base | none => base
  let full := fun (p : List Byte) => (imageBlocks p).foldl (fun t b => applyBlock b t) t
  let scene := pickCopy s N.stable fun p => imageFits s p && !(imageBlocks p).any (fun b => (blockEntries b).any entryRsvd) && !badConfig (nSheds s) (full p)
  (match scene, reg with
    | some (_, p), _ => full p
    | none, some (_, b) => applyEntries ((blockEntries b).filter fun e => !shedConfig.contains e.1) base
    | none, none => base, scene, reg.isNone)

/-- Image of the stored Stable scene in shed `k`, without programs being loaded: what LAPSE = STABLE shows (05, R149). DESIGN CHOICE: while the
store holds no valid copy every value of it is 0 (log entry 202). -/
def storedStable (s : State) : Table Img :=
  match pickCopy s N.stable (imageFits s) with
  | some (_, p) => mapImgs (present s) (fullImage p)
  | none => []

/-- A failed load is reported: the fault, and the record once the firmware runs (02, R57). -/
def reportLoad (s : State) : State :=
  if !s.power.loadFailed then s
  else
    let none_ := s.scene.loadFails.isEmpty
    let det := if none_ then 0x1A else 0x1B
    let s := if (getDet s det).raised then s else raiseFault det 0 s
    if !s.power.fw then s
    else
      let mask := (s.scene.loadFails.eraseDups.map fun k => 2 ^ k).foldl (· + ·) 0
      { log 0x0008 2 mask (bit01 (!none_)) s with power := { s.power with loadFailed := false } }

/-- The share that a shed holds until the first GOVERN: floor(A / n) at the stored limit, with the throttle step of the start (09, R267). -/
def firstShare (s : State) : Nat := (allowanceAt s (steps s)).toNat / max (nSheds s) 1

/-- Words of the configuration, and once the firmware runs of the calibration, that shed `k` does not yet hold. -/
def configWords (s : State) (k : Nat) : List (Nat × DWord) :=
  let d := getShed s k
  ((shedCopies.filter fun n => (Table.find? d.cfgIn n).getD (regInit n) ≠ effReg s k n).map fun n =>
    (A.cfg + n, regWord (effReg s k n))) ++ calWords s k []

/-- Hottest reading at the loader's temperature read (R55). -/
def loaderTemp (s : State) : Int :=
  (present s).foldl (fun (a : Int) k => match (getShed s k).warm.readings with | some r => max a r.die | none => a)
    (max s.therm.yardCore (max s.therm.yardMem s.therm.yardNet))

/-- One complete load (02, R52, R55 to R57): temperatures, copies, the writes to every shed and the loader's round. Session 0 takes
the stored values (10, R280). -/
def loadStable (s : State) : State :=
  let (regs, scene, defaulted) := selectStores s
  let s := { s with
    regs := regs
    therm := { s.therm with regs := none }
    store := { s.store with defaulted := defaulted, sceneCopy := match scene with | some (i, _) => i | none => 0 }
    scene := { s.scene with loadTried := if s.power.fw then some s.now else none, loadFails := [] }
    power := { s.power with phase := .loading, loadFailed := false } }
  let s := if s.power.fw then s else setSess 0 (sessionZero s) s
  let t := loaderTemp s
  let s := if bandOn s then setRegf yardDie R.thermSt 11 10 (bandOf s t) s else s
  let s := forAll (present s) (fun k s => writeWords k (configWords s k ++ [(A.share, BitVec.ofNat 64 (firstShare s))]) s) s
  match scene with
  | none => reportLoad { s with power := { s.power with loadFailed := true } }
  | some (_, p) =>
    let s := if t ≥ shutdownT s - shutdownHys s then setRegf yardDie R.rstCause 8 8 1 s else s
    let trig := imageTrig p
    let s := { s with pat := { s.pat with trig := Table.putAll 0 [] 0 trig } }
    startRound [] [] [] [] (mapImgs (present s) (fullImage p)) false false true s

end Sys2Proof.Machine
end

