-- ==== Sys2Proof/Machine/MarkOps.lean ====
section
/-! DEFINITION. Frame marks and the training of die links (01, R26 to R32; 02, R52, R78; 15, R423): the MARK words, the yard's own
mark with what hangs on it, marks in a shed, and what follows when a link trains. -/

namespace Sys2Proof.Machine

open Sys2Proof

/-- The link islands run: supplies valid and PLLs locked (02, Table 2.2). -/
def powered (s : State) : Bool := !decide (s.power.phase = .held) && !decide (s.power.phase = .released)

/-- Present sheds whose link is trained. -/
def reached (s : State) : List Nat := (present s).filter fun k => (getLink s k).trained

/-- One of the two MARK words of the coming mark (R26), in link clocks of 5 ns. -/
def sendMark (copy : Nat) (s : State) : State :=
  let n := nextMarkAt s
  let lead := if copy = 0 then 4 * us else 2 * us
  if !s.marks.running || s.marks.sent ≠ copy || s.now + lead < n then s
  else
    let s := forAll (reached s) (fun k s => sendCtl k true (.mark ((n - s.now) / 5) (s.marks.count + 1)) s) s
    { s with marks := { s.marks with sent := copy + 1 } }

/-! Lamp accounting (14, R405). -/

/-- A function is lit in the running frame, whose length is `len` ns: seconds, remainder, on count. -/
def countLit (len f : Nat) (s : State) : State :=
  if s.log.counted.contains f then s
  else
    let s := updFn f (fun x =>
      { x with acc := (x.acc + len) % 1000000000, lampS := min 0xFFFFFFFF (x.lampS + (x.acc + len) / 1000000000)
               onN := if x.lit then x.onN else min 0xFFFFFFFF (x.onN + 1), lit := true }) s
    { s with log := { s.log with counted := s.log.counted ++ [f] } }

/-- The frame ends: sheds that did not report count as their last report, and functions that nobody lit are unlit. -/
def endLit (s : State) : State :=
  let len := interval s
  let s := forAll (s.log.lits.flatMap (·.2)) (countLit len) s
  let dark := (s.fns.filter fun p => p.2.lit && !s.log.counted.contains p.1).map (·.1)
  let s := forAll dark (fun f s => updFn f (fun x => { x with lit := false }) s) s
  { s with log := { s.log with counted := [] } }

/-! The Stable scene is applied. -/

/-- Window pages of the applied scene of shed `k`, and of the package (05, Table 5.2, R148). -/
def imagePages (s : State) (k : Nat) : List (Nat × Nat × List Byte) :=
  let m := applied s k
  let words := fun (a n : Nat) => (List.range n).flatMap fun i => le 8 (iw m (a + i)).toNat
  (List.range 4).map (fun b => (0x10 + 8 * b + k, 0, words A.value 512))
  ++ (List.range 4).map (fun q => (0x30 + 4 * k + q, 0, words (A.attr + 512 * q) 512))
  ++ [(0x4C, 512 * k, (List.range 128).flatMap fun c => le 4 (dotOf m c)),
      (0x4E + k / 4, 1024 * (k % 4), words A.fallback 128)]
  ++ (if k = 0 then [(0x4D, 0, words A.fn 512)] else [])

/-- Pages 0x30 to 0x4F and the value banks take the applied Stable scene (05, R148). -/
def fillScenePages (s : State) : State :=
  forAll (present s) (fun k s => forAll (imagePages s k) (fun p s => storePage p.1 p.2.1 p.2.2 s) s) s

/-- Starts of the AUTO engines at mark `m`, as the yard keeps them for rejoins (06, R193, R197). -/
def autoStarts (s : State) (m : Word) : List (Nat × PatCtl) :=
  (present s).flatMap fun k => ((List.range 16).filter fun e => pgAuto (applied s k) e && pgKeys (applied s k) e ≠ 0).map fun e =>
    (16 * k + e, { engine := e, act := .start, immediate := false, mark := m, superseded := 0 })

/-- CFG_DEFAULTED, once the firmware runs (16, R438). -/
def reportDefaulted (s : State) : State :=
  if s.power.fw && s.store.defaulted then
    { log 0x0009 1 s.store.sceneCopy 0 s with store := { s.store with defaulted := false } }
  else s

/-- Boot mark Mb (02, R52, R55, R61): the Stable scene is the applied scene; a hot start or the flag gives Cold Wait. -/
def stableApplied (s : State) : State :=
  let c := s.marks.count
  let w := effReg s 0 R.frameCfg
  let cold := regf s yardDie R.rstCause 8 8 == 1
  let s := { s with
    power := { s.power with stable := true, phase := .done }
    marks := { s.marks with change := some (c + 1, cfgP w, cfgN w), mb := none }
    pat := { s.pat with since := autoStarts s (c + 1), checks := []
                        checkAt := mapCount (present s) (c.toNat + 1) } }
  let s := fillScenePages s
  reportDefaulted (if cold && !inCold s then enterCold s else s)
where
  mapCount (l : List Nat) (v : Nat) : Table Nat := l.foldl (fun t k => Table.put 0 t k v) []

/-! The yard's mark. -/

/-- A pattern load takes effect in the yard at its apply mark (06, R198, R199). -/
def trigApply (s : State) : State :=
  match s.pat.trigPend with
  | none => s
  | some (m, es, trig) =>
    if !markAtOrAfter s.marks.count m then s
    else
      let t := match trig with | some bs => Table.putAll 0 [] 0 bs | none => s.pat.trig
      { s with pat := { s.pat with
        trig := t, trigPend := none
        checks := s.pat.checks.filter fun p => !es.contains p.1
        since := s.pat.since.filter fun p => !es.contains p.1 || p.2.mark == m } }

/-- A retest begins at its mark, and the function is NORMAL again at the mark of its return (08, R253, R254). -/
def retestMark (s : State) : State :=
  match s.therm.retest with
  | none => s
  | some r =>
    let s := if r.named && s.marks.count = r.mark then updFn r.fn (fun x => { x with st := 2 }) s else s
    match r.back with
    | some m =>
      if markAtOrAfter s.marks.count (BitVec.ofNat 32 m) then
        let s := updFn r.fn (fun x => { x with st := 0, failSite := none, failVerdict := 0 }) s
        { s with therm := { s.therm with retest := none } }
      else s
    | none => s

/-! Marks that wait to be named while a round holds WRITEs (05, R156). -/

/-- The retest's mark is named once WRITEs are free (08, R253; log entry 195). -/
def nameRetest (s : State) : State :=
  match s.therm.retest with
  | some r =>
    if r.named || writesHeld s then s
    else
      let m := markIn s (1200 * us)
      sendFnState r.fn 2 m { s with therm := { s.therm with retest := some { r with mark := m, named := true } } }
  | none => s

/-- The capture's mark: the sites of a REGULATED function that is lit then (R215, Table 7.8). -/
def captureMark (s : State) : State :=
  match s.lt.capture with
  | some y =>
    if !y.named || y.mark ≠ s.marks.count then s
    else
      let litFn := fun (f : Nat) => (present s).any fun k => (sitesOf (applied s k) f).any fun i => frameValue (applied s k) i ≠ 0
      let regOn := fun (i : Nat) =>
        let w := siteAttr (applied s y.shed) i
        saFnEn w && fnRegulated (applied s y.shed) (saFn w) && litFn (saFn w)
      { s with lt := { s.lt with capture := some { y with
        sites := y.sites.map fun x => if regOn x.site then { x with status := 5 } else x } } }
  | none => s

/-- The mark of a capture that waits is named once WRITEs are free: the shed is told and the command answered (R213; 05, R156; log entry
195). -/
def nameCapture (s : State) : State :=
  match s.lt.capture with
  | some y =>
    if y.named || writesHeld s then s
    else
      let m := markIn s (1200 * us)
      let s := { s with lt := { s.lt with capture := some { y with mark := m, named := true } } }
      let o : CaptureOrder := { first := (y.sites.map (·.site)).headD 0, count := y.sites.length, point := y.point, acal := y.acal, mark := m }
      answer y.sess y.entry 0x0411 0 0 (le 4 m.toNat) (toShed y.shed (.writeCapture o) s)
  | none => s

/-- What waits for free WRITEs is named (04, R118). -/
def nameWaiting (s : State) : State := nameCapture (nameRetest (if s.marks.nameDue then applyBand s else s))

/-- Frame that the checkpoints of shed `k` refer to. -/
def checkFrame (s : State) (k : Nat) : Word := BitVec.ofNat 32 (Table.get 0 s.pat.checkAt k - 1)

/-- The mark begins or goes on with an era of the pattern engines; eras before every checkpoint are forgotten (06, R177, R193, R196). -/
def noteEras (s : State) : State :=
  let l := pushEra s.marks.count (interval s) s.power.fail.isSome s.pat.eras
  let newer := l.takeWhile fun e => (present s).any fun k => !markAtOrAfter (checkFrame s k) e.1
  { s with pat := { s.pat with eras := l.take (newer.length + 1) } }

/-- The outputs go off at the mark that Night Watch entry waits for (02, Table 2.4). -/
def entryMark (s : State) : State :=
  match s.power.entry with
  | some e =>
    if e.outputsOff || s.scene.round.isSome || writesHeld s then s
    else allOff { s with power := { s.power with entry := some { e with outputsOff := true } } }
  | none => s

/-- The yard's mark (R26): frame count, period and frame length, and what acts at a mark. -/
def yardMark (s : State) : State :=
  let n := nextMarkAt s
  if !s.marks.running || s.now < n then s
  else
    let s := endLit s
    let c := s.marks.count + 1
    let m := { s.marks with at_ := n, count := c, sent := 0 }
    let m := match m.change with
      | some (x, p, q) => if markAtOrAfter c x then { m with change := none, perP := p, perN := q, boot := false } else m
      | none => m
    let s := { s with marks := m, therm := { s.therm with govDue := reached s, govSteps := steps s } }
    let s := if s.marks.boot && s.marks.mb = some c then stableApplied s else s
    let s := match s.marks.bandPend with
      | some (x, _) => if x = c + 1 then sendBand s else if markAtOrAfter c x then { s with marks := { s.marks with bandPend := none } } else s
      | none => s
    entryMark (captureMark (retestMark (nameWaiting (trigApply (flushWrites (noteEras s))))))

/-! Marks in a shed. -/

/-- Calibrated latency of a link in ns (Table 1.7). -/
def latency (s : State) (k : Nat) : Nat := 5 * regf s k R.linkSt 7 0

/-- A MARK word at a shed (R27). -/
def recvMark (k fire : Nat) (count : Word) (s : State) : State :=
  let at_ := s.now + 5 * fire - latency s k
  let d := getShed s k
  match d.markIn with
  | none => setShed k { d with markIn := some { fireAt := at_, count := count } } s
  | some m =>
    if m.count = count && m.fireAt < at_ + 5 && at_ < m.fireAt + 5 then s
    else bumpReg k R.linkSt 15 12 (setShed k { d with mdisReport := d.mdisReport + 1 } s)

/-- A word of a shed's front buffers that reads with an uncorrectable error is reported (15, SHED_MEM_UE). -/
def frontErrors (k : Nat) (s : State) : State :=
  let d := getShed s k
  if d.badWords.any (·.1) then
    shedEvent k (.fault 0x0C) (setShed k { d with badWords := d.badWords.filter fun b => !b.1 } s)
  else s

/-- Steps of 1/8,192 by which the counted grey clocks differ from N × P, to the nearest (R31; log entry 186). -/
def trimSteps (clocks want : Nat) : Int := (16384 * ((clocks : Int) - want) + want) / (2 * max want 1 : Nat)

/-- The shed trims its oscillator between two received marks, and its clock is locked from the eighth on (R31). -/
def trimClock (k clocks : Nat) (s : State) : State :=
  let s := updShed k (fun d => if d.goodMarks = 0 then d else { d with trim := d.trim - trimSteps clocks (d.perP * d.perN) }) s
  let s := updShed k (fun d => { d with marksRx := d.marksRx + 1, goodMarks := d.goodMarks + 1 }) s
  if (getShed s k).marksRx ≥ 8 then setRegf k R.linkSt 8 8 1 s else s

/-- The shed fires a received mark (R27, R31, R32), having counted `clocks` grey clocks since the mark before. -/
def fireMark (k clocks : Nat) (s : State) : State :=
  match (getShed s k).markIn with
  | none => s
  | some m =>
    if !powered s || s.now < m.fireAt then s
    else
      frontErrors k (shedMark k m.count (trimClock k clocks s))

/-- The longest frame that a shed counts, in ns: N × P grey clocks, the clock fast by up to 3 % before lock and 0.5 % after (R31). -/
def freeRunAt (s : State) (k : Nat) : Nat :=
  let d := getShed s k
  let fast := if regf s k R.linkSt 8 8 = 1 then 995 else 970
  d.markAt + shedInterval d * fast / 1000

/-- The shed fires the mark itself (R28). -/
def freeRun (k : Nat) (s : State) : State :=
  let d := getShed s k
  if !powered s || d.markIn.isSome || d.markAt = 0 || s.now < freeRunAt s k then s
  else
    let s := setRegf k R.linkSt 11 11 1 (setShed k { d with goodMarks := 0 } s)
    frontErrors k (shedMark k (d.frame + 1) (shedEvent k (.fault 0x0A) s))

/-- The grey clock is locked (R31). -/
def lockClock (k : Nat) (s : State) : State :=
  if (getShed s k).marksRx ≥ 8 then setRegf k R.linkSt 8 8 1 s else s

/-- A latency measurement, every 1,024 frames, waits for a mark (R30). -/
def calibrateLatency (k : Nat) (lat : Byte) (s : State) : State :=
  if (getLink s k).trained && s.marks.running && s.marks.count.toNat % 1024 = 0 then
    updLink k (fun l => { l with latPend := some lat.toNat }) s
  else s

/-! Training. -/

/-- An attempt to train is due (15, R423). -/
def trainAttempt (k : Nat) (s : State) : State :=
  let l := getLink s k
  match l.outage with
  | some t =>
    let gap := if s.now < t + 100 * ms then ms else 100 * ms
    if l.trained || s.now < l.lastTry + gap then s else setLink k { l with lastTry := s.now } s
  | none => s

/-- A link has trained (01, R30, R31; 02, R52, R78): boot marks begin when every link has, or the shed's reload begins. -/
def linkTrained (k : Nat) (lat : Byte) (r : ShedReadings) (s : State) : State :=
  let l := getLink s k
  if l.trained || !powered s then s
  else
    let e := { LinkEnd.init with lastRx := s.now, lastTx := s.now }
    let s := setLink k { l with trained := true, yard := e, shed := e, latPend := none } s
    let s := setRegf k R.linkSt 7 0 lat.toNat (setRegf k R.linkSt 8 8 0 s)
    let s := updShed k (fun d =>
      let d := { d with marksRx := 0, goodMarks := 0, markIn := none }
      if d.warm.readings.isNone then keepReadings r d else d) s
    if s.power.phase = .clocked then
      if (present s).all fun j => (getLink s j).trained then
        loadStable { s with marks := { s.marks with running := true, boot := true, at_ := s.now, sent := 0 } }
      else s
    else if s.power.stable then reloadShed k (updShed k (fun d => { d with resync := true, reloaded := false }) s)
    else updLink k (fun l => { l with outage := none }) s

/-- The retry of a failed load (02, R57): at once when the firmware runs, then every second, complete. -/
def retryLoad (s : State) : State :=
  if s.power.stable || !s.power.fw || s.power.phase ≠ .loading || s.scene.round.isSome
      || (match s.scene.loadTried with | some t => s.now < t + sec | none => false)
      || !(present s).all fun k => (getLink s k).trained then s
  else loadStable s

end Sys2Proof.Machine
end

