-- ==== Sys2Proof/Machine/RecvOps.lean ====
section
/-! DEFINITION. Die-link packets on arrival (01, R33 to R38, Table 1.5): acceptance, retries and the heartbeat action, what each packet
does in a shed and in the yard. -/

namespace Sys2Proof.Machine

open Sys2Proof

/-! Retries and heartbeats (R36 to R38). -/

/-- Packets take their turns on the lane again, from instant `t` on; with the instant at which the last ends. -/
def resendFrom (now t ack : Nat) : List OutPkt → List OutPkt × Nat
  | [] => ([], t)
  | o :: r =>
    let b := t + wordTime * o.pkt.words
    let q := resendFrom now b ack r
    ({ o with head := o.pkt.head o.seq ack, startAt := t, sentAt := b, again := o.again || o.startAt ≤ now } :: q.1, q.2)

/-- The packet on the lane is finished, then the oldest outstanding packet and those after it are sent again: one retry of that
packet (R36). -/
def resend (now : Nat) (e : LinkEnd) : LinkEnd :=
  let q := resendFrom now (match onLane now e.out with | some o => o.sentAt | none => now) e.ackOf e.out
  { e with
    out := match q.1 with | o :: r => { o with retries := o.retries + 1 } :: r | [] => []
    busy := q.2, lastTx := q.2 }

/-- The heartbeat action at an end, once in an outage (R38; 15, R422, R423): at the yard a report to the collector, at the shed the
fallback image. -/
def heartbeatAction (k : Nat) (atYard : Bool) (s : State) : State :=
  if (getEnd s k atYard).fired then s
  else if atYard then
    let inc := match s.faults.shadows.find? fun x => isShed k x.block with | some x => x.inc | none => 0
    let s := raiseFault 0x09 (k + 1) s
    let s := updLink k (fun l => { l with yard := { l.yard with fired := true } }) s
    if (getLink s k).trained then loseShed k inc s else s
  else
    let s := updLink k (fun l => { l with trained := false, shed := { l.shed with fired := true } }) s
    let s := updShed k (fun d => { d with held_events := d.held_events ++ [.fault 0x09] }) s
    if s.power.stable then showFallback k s else s

/-- A retry of an end's oldest packet, or link failure after four (R36). -/
def retryOldest (k : Nat) (atYard : Bool) (s : State) : State :=
  let e := getEnd s k atYard
  match e.out with
  | [] => s
  | o :: _ =>
    if o.retries ≥ 4 then heartbeatAction k atYard (setRegf k R.linkSt 9 9 1 s)
    else
      let s := bumpReg k R.linkSt 23 16 s
      setEnd k atYard (resend s.now e) s

/-- A packet is unacknowledged 2 µs after its last word (R36). It is the oldest outstanding one, whose retry sends the later ones too. -/
def retryTimeout (k : Nat) (atYard : Bool) (s : State) : State :=
  let e := getEnd s k atYard
  match e.out with
  | [] => s
  | o :: _ =>
    if !(getLink s k).trained || e.fired || s.now < o.sentAt + 2 * us then s else reportLoad (retryOldest k atYard s)

/-- HEARTBEAT after 100 µs without a word (R37). The word carries the sender's frame count. -/
def heartbeatSend (k : Nat) (atYard : Bool) (s : State) : State :=
  let e := getEnd s k atYard
  if !(getLink s k).trained || s.now < e.lastTx + 100 * us then s
  else sendCtl k atYard (.heartbeat (if atYard then s.marks.count else (getShed s k).frame)) s

/-- The heartbeat timer expires (R37, R38). -/
def heartbeatTimeout (k : Nat) (atYard : Bool) (s : State) : State :=
  let l := getLink s k
  let e := getEnd s k atYard
  let live := l.trained || l.yard.fired || l.shed.fired
  if !live || e.fired || s.now < e.lastRx + ms || (l.trained && retryPending s k atYard) then s
  else reportLoad (heartbeatAction k atYard s)

/-! Acceptance (R33, R35). -/

/-- An acknowledgement reaches an end; the yard's round goes on when it was the last one waited for (05, R156). -/
def acked (k : Nat) (atYard : Bool) (u : Nat) (s : State) : State :=
  let s := setEnd k atYard (release s.now u (getEnd s k atYard)) s
  if atYard then roundProgress s else s

/-- A control word leaves the list of those under way, with its header word. -/
def takeCtl (c : Ctl) : List (Ctl × DWord) → Option (DWord × List (Ctl × DWord))
  | [] => none
  | x :: r => if x.1 = c then some (x.2, r) else (takeCtl c r).map fun q => (q.1, x :: q.2)

/-- A control word arrives at an end: it was on the way, and an uncorrectable error discards it alone (R33). The ACK field of a good
word acknowledges (Table 1.4), and `f` acts on it. -/
def recvCtl (k : Nat) (atYard : Bool) (err : WordErr) (c : Ctl) (f : State → State) (s : State) : State :=
  let p := freeHeld s.now (getEnd s k (!atYard))
  match takeCtl c p.ctl with
  | none => s
  | some (w, l) =>
    if !(getLink s k).trained then s
    else
      let s := setEnd k (!atYard) { p with ctl := l } s
      match err with
      | .uncorrectable => s
      | _ =>
        let s := setEnd k atYard { getEnd s k atYard with lastRx := s.now } (if err = .corrected then bumpReg k R.linkSt 31 24 s else s)
        f (if c.isMark then s else acked k atYard (headAck w) s)

/-- The injection that spoils this direction has done its work once a packet is accepted (15, Table 15.9). -/
def endSpoil (k : Nat) (atYard : Bool) (s : State) : State :=
  match s.faults.injection with
  | some i => if i.shed = k && i.checker = (if atYard then 5 else 4) then { s with faults := { s.faults with injection := none } } else s
  | none => s

/-- A packet that has arrived, and those before it, have been on the lane. -/
def flown (now seq : Nat) (e : LinkEnd) : LinkEnd :=
  { e with out := e.out.map fun o =>
      if o.seq = seq || seqPast o.seq seq then { o with startAt := min now o.startAt, sentAt := min now o.sentAt, again := true } else o }

/-- A good word restarts the heartbeat timer (R37). -/
def heard (k : Nat) (atYard : Bool) (s : State) : State := setEnd k atYard { getEnd s k atYard with lastRx := s.now } s

/-- A packet without an uncorrectable word: its ACK field, then acceptance under its sequence number (R35). -/
def takePkt (k : Nat) (atYard : Bool) (o : OutPkt) (f : Packet → State → State) (s : State) : State :=
  let s := acked k atYard (headAck o.head) s
  let e := getEnd s k atYard
  if o.seq = e.rxSeq then
    let s := setEnd k atYard { e with rxSeq := (o.seq + 1) % 256 } s
    f o.pkt (sendCtl k atYard (.ack o.seq) (endSpoil k atYard s))
  else if seqPast o.seq e.rxSeq then sendCtl k atYard (.ack o.seq) s
  else sendCtl k atYard (.nak e.rxSeq) s

/-- A packet arrives: the one outstanding under this sequence number, when it is of the named kind (log entry 5). Every corrected word
counts; one uncorrectable word discards the packet (R33). -/
def recvPkt (k : Nat) (atYard : Bool) (seq : Nat) (err : PacketErr) (isIt : Packet → Bool) (f : Packet → State → State) (s : State) : State :=
  if !(getLink s k).trained then s
  else
    match (getEnd s k (!atYard)).out.find? fun o => o.seq == seq && isIt o.pkt with
    | none => s
    | some o =>
      let (err, s) := spoil k atYard err s
      let s := setEnd k (!atYard) (flown s.now seq (getEnd s k (!atYard))) s
      let s := if err.fixed = 0 then s else addReg k R.linkSt 31 24 err.fixed s
      let s := if err.bad < o.pkt.words then heard k atYard s else s
      if err.bad = 0 then takePkt k atYard o f s
      else sendCtl k atYard (.nak (getEnd s k atYard).rxSeq) (setRegf k R.linkSt 10 10 1 s)

/-- A NAK: what came before the named packet is accepted, and the named one is retried (R36). -/
def recvNak (k : Nat) (atYard : Bool) (expected : Nat) (s : State) : State :=
  let s := acked k atYard ((expected + 255) % 256) s
  if (getEnd s k atYard).fired then s else reportLoad (retryOldest k atYard s)

/-- An IDLE word (R37). -/
def recvIdle (k : Nat) (atYard : Bool) (err : WordErr) (s : State) : State :=
  if !(getLink s k).trained || err = .uncorrectable then s
  else
    let s := if err = .corrected then bumpReg k R.linkSt 31 24 s else s
    acked k atYard (getEnd s k (!atYard)).ackOf (heard k atYard s)

/-! In a shed. -/

/-- Function `f` has become FAILED_OFF in the shed, and the report still waits for the rejoin (R249). -/
def ownFailure (d : Shed) (f : Nat) : Bool :=
  fnState d f == 1 && d.held_events.any fun e => match e with
    | .verdict i _ _ v _ => failVerdict v && saFnEn (siteAttr d.front i) && siteReg d i && siteFn d i == f
    | _ => false

/-- One word of a WRITE (05, R156; 03, R114; 04, R118; 07, R216; 08, R249; 02, R78; log entry 6). -/
def writeWord (k a : Nat) (w : DWord) (s : State) : State :=
  updShed k (fun d =>
    if a < A.cfg then { d with back := setIw a w d.back, badWords := d.badWords.filter fun b => !(b.1 == false && b.2 == a) }
    else if a < A.cal then { d with cfgIn := Table.put (regInit (a - A.cfg)) d.cfgIn (a - A.cfg) (BitVec.ofNat 32 w.toNat) }
    else if a < A.fnState then
      if a - A.cal < 2048 then
        let d := updSite (a - A.cal) (fun x => { x with cal := w, delta := 0, used := 0, tv := none, vSum := 0, vN := 0 }) d
        { d with warm := { d.warm with tl := d.warm.tl.map fun e => (e.1, e.2.1, Table.drop e.2.2 (a - A.cal)) } }
      else d
    else if a < A.fnState + 256 then
      let f := a - A.fnState
      let st := dfld w 7 0
      let m := BitVec.ofNat 32 (dfld w 63 32)
      if markAtOrAfter d.frame m then (if d.resync && st = 0 && ownFailure d f then d else takeFnState f st d)
      else { d with fnPend := d.fnPend ++ [(m, f, st)], drive := { d.drive with retest := if st = 2 then some (f, m) else d.drive.retest } }
    else if a = A.change then
      let c := BitVec.ofNat 32 (dfld w 31 0)
      { d with change := some (BitVec.ofNat 32 (dfld w 63 32), cfgP c, cfgN c) }
    else if a = A.loads then { d with loads := (List.range 16).filter fun e => w.toNat.testBit e }
    else if a = A.done then { d with reloaded := d.resync && !s.scene.reloads.contains k }
    else d) s

/-- WRITE (R156). -/
def onWrite (k : Nat) (a : Nat) (ws : List DWord) (s : State) : State :=
  forAll ws.zipIdx (fun p s =>
    if a + p.2 = A.share then setRegf k R.govShedSt 31 16 (dfld p.1 15 0) s else writeWord k (a + p.2) p.1 s) s

/-- The engines that a reload restores (06, R193; log entry 6). -/
def onWriteEngines (k : Nat) (r : Restore) (s : State) : State := updShed k (fun d => { d with restore := some r }) s

/-- A capture that the yard orders (07, R213; log entry 6). -/
def onWriteCapture (k : Nat) (c : CaptureOrder) (s : State) : State :=
  let site := fun (j : Nat) => ({ site := c.first + j, sumA := 0, nA := 0, sumB := 0, nB := 0, low := false, tbFirst := none, tbMin := 0
                                  tbMax := 0, tbSum := 0, tbN := 0, invalid := false, status := 0, fs := 0 } : CapSite)
  let y : Capture := { shed := k, point := c.point, acal := c.acal, mark := c.mark, sess := 0, entry := 0, named := true, periods := 0
                       sites := (List.range c.count).map site }
  updShed k (fun d => { d with drive := { d.drive with capture := some y } }) s

/-- What a shed reads at an address: function states, its buffers, its configuration; a free value elsewhere (log entry 6). -/
def readWord (s : State) (k a : Nat) : DWord :=
  let d := getShed s k
  if a < A.cfg then iw d.front a
  else if a < A.cal then regWord (cw d.cfgIn (a - A.cfg))
  else if a < A.cal + 2048 then (getSite d (a - A.cal)).cal
  else if A.fnState ≤ a && a < A.fnState + 256 then fnWord (fnState d (a - A.fnState)) d.frame
  else Config.shedWord k a

/-- READ_REQ: 32 words (R35). -/
def onReadReq (k a : Nat) (s : State) : State :=
  toYard k (.readData a ((List.range 32).map fun i => readWord s k (a + i))) s

/-- PREPARE (05, R157), for which the word `bad` of the back buffers may read with an error until it is written again. A resynchronising
shed takes no part. -/
def onPrepare (k id : Nat) (bad : Option Nat) (s : State) : State :=
  let s := if (getShed s k).resync then s else firstReading k s
  let s := match bad with
    | some a => updShed k (fun d => { d with badWords := d.badWords ++ [(false, a)] }) s
    | none => s
  let d := getShed s k
  if d.resync then s
  else if !(d.badWords.any fun b => !b.1) && id ≠ d.lastRound then
    toYard k (.prepareOk id) (setShed k { d with prepared := some id } s)
  else toYard k (.prepareFail id) s

/-- COMMIT (05, R160, R161). -/
def onCommit (k id : Nat) (m : Word) (s : State) : State :=
  let d := getShed s k
  if d.prepared ≠ some id then s
  else if markAtOrAfter d.frame m then
    shedEvent k (.fault 0x0B) (setShed k { d with back := d.front, prepared := none, loads := [] } s)
  else setShed k { d with prepared := none, held := some (id, m) } s

/-- ABORT (05, R159). -/
def onAbort (k : Nat) (s : State) : State :=
  updShed k (fun d => { d with back := d.front, prepared := none, held := none, loads := [] }) s

/-- A control that comes after the mark it names was evaluated: the engine is as if it had come in time, LATE counts it, and the shed reports
it (06, R192). An engine reset leaves the count of this event alone (Table 6.12). -/
def latePatCtl (k : Nat) (c : PatCtl) (s : State) : State :=
  let d := getShed s k
  let r := replay d.front c d.past (getEngine d c.engine)
  let late := if c.act = .reset then 1 else min 7 ((getEngine d c.engine).late + 1)
  shedEvent k (.patLate c.engine c.mark) (setShed k (setEngine c.engine { r.1 with late := late } { d with past := r.2 }) s)

/-- PAT_CTL (06, R192, R193, R196): kept for the rejoin, or for its mark, also while that mark's evaluation is frozen out. -/
def onPatCtl (k : Nat) (c : PatCtl) (s : State) : State :=
  let d := getShed s k
  if d.resync then setShed k { d with restoreCtls := d.restoreCtls ++ [c] } s
  else
    match d.past.getLast? with
    | some p => if markAtOrAfter p.frame c.mark then latePatCtl k c s else setShed k { d with ctls := d.ctls ++ [c] } s
    | none => setShed k { d with ctls := d.ctls ++ [c] } s

/-- DERATE (07, R223; 01, R42). -/
def onDerate (k : Nat) (m : Word) (codes : List (Nat × Nat)) (s : State) : State :=
  let d := getShed s k
  let s := if yardShadow s && markAtOrAfter d.frame m then yardTrip 6 k s else s
  setShed k { d with drive := { d.drive with deratePend := d.drive.deratePend ++ [(m, codes)] } } s

/-- FAIL_OFF (08, R248). -/
def onFailOff (k f : Nat) (s : State) : State := updShed k (fnDark f) s

/-- GOVERN (09, R265, R266; 01, R41): the local share, and the factors where they come before the placement start point. A later one was
counted there. -/
def onGovern (k gs gr share : Nat) (s : State) : State :=
  let d := getShed s k
  let s := setRegf k R.govShedSt 31 16 share s
  if d.drive.placing.isSome || d.drive.next.isSome then if yardShadow s then yardTrip 6 k s else s
  else setShed k { d with drive := { d.drive with govern := true, gs := gs, gr := gr } } s

/-- ROUND (09, R258), with the VBAT of the yard's last reading (03, R104; log entry 199). -/
def onRound (k vbat : Nat) (s : State) : State :=
  updShed k (fun d => { d with warm := { d.warm with busy := true, roundAt := s.now, vbat := vbat } }) s

/-- FALLBACK (15, R412). -/
def onFallback (k : Nat) (s : State) : State := showFallback k (updShed k (fun d => { d with sentFallback := true }) s)

/-! In the yard. -/

/-- READ_DATA (08, R249): the mirror takes the function states that a shed holds. -/
def onReadData (a : Nat) (ws : List DWord) (s : State) : State :=
  forAll ws.zipIdx (fun p s =>
    let b := a + p.2
    if A.fnState ≤ b && b < A.fnState + 256 && dfld p.1 7 0 ≠ 0 && (getFn s (b - A.fnState)).st = 0 then
      updFn (b - A.fnState) (fun x => { x with st := 1 }) s
    else s) s

/-- Readings of die `i` join the round (09, R259, R260): index 0 stands for the yard's hottest. -/
def dieReading (i : Nat) (t : Int) (refOk : Bool) (s : State) : State :=
  let good := refOk && -880 ≤ t && t ≤ 3360
  let th := s.therm
  let th := { th with
    dies := if good then Table.put 0 th.dies i t else th.dies
    refBad := BitVec.ofNat 8 (if refOk then clrBit th.refBad.toNat i else setBit th.refBad.toNat i)
    invalid := BitVec.ofNat 8 (if good then clrBit th.invalid.toNat i else setBit th.invalid.toNat i)
    badNow := BitVec.ofNat 8 (if good then clrBit th.badNow.toNat i else setBit th.badNow.toNat i)
    everSeen := if good then BitVec.ofNat 8 (setBit th.everSeen.toNat i) else th.everSeen
    reported := th.reported.filter (· ≠ i) ++ [i] }
  let s := { s with therm := th }
  let s := if refOk && (getDet s 0x10).dies.toNat = 2 ^ i then setCause 0x10 false s else s
  if good && (getDet s 0x11).dies.toNat = 2 ^ i then setCause 0x11 false s else s

/-- A die's reading in the round is invalid though another sensor of it reads well. -/
def badReading (i : Nat) (s : State) : State :=
  { s with therm := { s.therm with
    invalid := BitVec.ofNat 8 (setBit s.therm.invalid.toNat i), badNow := BitVec.ofNat 8 (setBit s.therm.badNow.toNat i) } }

/-- Tj_max is evaluated once every die that can report has reported (09, R260; 07, R222), which needs the firmware (log entry 204). -/
def closeRound (s : State) : State :=
  if !s.therm.roundDue then s
  else
    let s := if s.power.fw then derateRound (evalRound s) else s
    { s with therm := { s.therm with roundDue := false, reported := [] } }

def roundComplete (s : State) : State :=
  if s.therm.reported.contains 0 && (reached s).all fun k => s.therm.reported.contains (k + 1) then closeRound s else s

/-- A trigger that a shed's EMIT raises (06, R189), or its controls lost while the firmware does not run (06, R195). -/
def emitted (n : Nat) (m : Word) (s : State) : State :=
  if s.power.fw then raiseTrigger n m s
  else if yardShadow s then
    forAll (trigEngines (trigEntry s n)) (fun g s => yardTrip 8 g s) s
  else s

/-- FRAME_STATUS (09, R263; 01, R27; 06, R189; 07, R205, R222; 14, R405). -/
def onFrameStatus (k : Nat) (f : FrameSt) (s : State) : State :=
  let s := { s with
    therm := { s.therm with
      tables := Table.put ([], [], 0) s.therm.tables k (f.styling, f.regulated, f.fixed)
      boards := Table.put [] s.therm.boards k f.boards }
    log := { s.log with lits := Table.put [] s.log.lits k f.lit } }
  let s := if f.mdis > 0 then logX 0x0B06 0 (k + 1) 255 k (regf s k R.linkSt 15 12) 0 s else s
  let s := forAll f.lit (countLit (interval s)) s
  let s := forAll f.emits (fun n s => emitted n (f.frame + 2) s) s
  let s := match f.readings with
    | some r =>
      let s := dieReading (k + 1) r.die r.refOk s
      let s := if !r.logicLow && (getDet s 0x0F).dies.toNat = 2 ^ (k + 1) then setCause 0x0F false s else s
      roundComplete s
    | none => s
  let due := s.therm.govDue.filter (· ≠ k)
  let last := due.isEmpty && !s.therm.govDue.isEmpty
  let s := { s with therm := { s.therm with govDue := due } }
  if last && s.power.fw then governDecision s else s

/-- Conditions that last: they are raised when they begin, not at every report (15, R416). -/
def lasting (det : Nat) : Bool := [0x0F, 0x10, 0x11, 0x12, 0x13, 0x17].contains det

/-- A detector's condition, reported by shed `k`. -/
def faultEvent (k det : Nat) (s : State) : State :=
  if lasting det && (getDet s det).cause && (getDet s det).dies.toNat.testBit (k + 1) then s
  else raiseFault det (k + 1) s

/-- The verdict of a site arrives, with the sites that share it (08, R234, R244, R245, R248; 00, R7). -/
def siteVerdict (k i members old new : Nat) (offOnly : Bool) (s : State) : State :=
  let g := 2048 * k + i
  let s := logX 0x0401 (bit01 (failVerdict new)) (k + 1) 255 g (old * 256 + new) 0 s
  let s := { s with diag := { s.diag with due := s.diag.due ++ [(0, g, members, new + 8 * bit01 offOnly)] } }
  let m := applied s k
  let f := saFn (siteAttr m i)
  if failVerdict new && saFnEn (siteAttr m i) && fnRegulated m f && (getFn s f).st = 0 then
    let s := updFn f (fun x => { x with st := 1, failSite := some g, failVerdict := new }) s
    let s := forAll ((present s).filter fun j => j ≠ k && !(sitesOf (applied s j) f).isEmpty) (fun j s => command j (.failOff f) s) s
    hostEvent 1 f (g * 65536 + new) (logX 0x0405 2 (k + 1) 255 f (g * 65536 + new) 0 s)
  else s

/-- The verdict of a switch or booster: `kind` 1 or 2, global number (08, R245). -/
def unitVerdict (k kind g old new code : Nat) (s : State) : State :=
  let s := logX code 1 (k + 1) 255 g (old * 256 + new) 0 s
  { s with diag := { s.diag with due := s.diag.due ++ [(kind, g, 1, new)] } }

/-- Checkpoints of shed `k` (06, R193). -/
def takeCheckpoints (k : Nat) (frame : Word) (l : List Checkpoint) (s : State) : State :=
  let old := s.pat.checks.filter fun p => p.1 / 16 ≠ k
  { s with pat := { s.pat with
    checks := l.foldl (fun t c => Table.put Checkpoint.init t (16 * k + c.engine) c) old
    checkAt := Table.put 0 s.pat.checkAt k (frame.toNat + 1)
    since := s.pat.since.filter fun p => !(p.1 / 16 == k && markAtOrAfter frame p.2.mark) } }

/-- The results of a capture that the yard still waits for (07, R214). -/
def takeCapture (k : Nat) (c : Capture) (s : State) : State :=
  match s.lt.capture with
  | some y => if y.shed = k && y.named && y.mark = c.mark then { s with lt := { s.lt with arrived := some c } } else s
  | none => s

/-- EVENT (01, Table 1.5), by what it reports. -/
def onEvent (k : Nat) (e : ShedEvent) (s : State) : State :=
  let note := fun (code sev p1 p2 : Nat) (s : State) => logX code sev (k + 1) 255 p1 p2 0 s
  match e with
  | .verdict i n old new off => siteVerdict k i n old new off s
  | .switchVerdict r old new => unitVerdict k 1 (16 * k + r) old new 0x0402 s
  | .boosterVerdict n old new => unitVerdict k 2 (8 * k + n) old new 0x0403 s
  | .starved i => note 0x0404 1 (2048 * k + i) 0 s
  | .mode g true reason => note 0x0408 0 (4 * k + g) reason s
  | .mode g false _ => note 0x0409 0 (4 * k + g) 0 s
  | .rowScaled r f => note 0x040A 0 (16 * k + r) f s
  | .rowRegOver r l => note 0x040B 1 (16 * k + r) l s
  | .exclHeld i a => note 0x040C 0 (2048 * k + i) (2048 * k + a) s
  | .lampHot i t => note 0x040F 1 (2048 * k + i) (toBits 32 t) s
  | .ntc n opened => faultEvent k (if opened then 0x12 else 0x13) (note (if opened then 0x040D else 0x040E) 1 (4 * k + n) 0 s)
  | .fault det => reportLoad (faultEvent k det s)
  | .patLate e m =>
    if shedShadow s k then addTrip (isShed k) { code := 0x0301, p1 := 16 * k + e, p2 := m.toNat, die := k + 1, n := 1 } s
    else note 0x0301 1 (16 * k + e) m.toNat s
  | .checkpoints f l => takeCheckpoints k f l s
  | .captured c => takeCapture k c s

/-- PREPARE_FAIL, with what a failed load reports (05, R157; 02, R57). -/
def onPrepareFail (k id : Nat) (s : State) : State := reportLoad (prepareFailFrom k id s)

end Sys2Proof.Machine
end

