-- ==== Sys2Proof/Machine/RoundOps.lean ====
section
/-! DEFINITION. What the yard's firmware does on its own (08, R243, R244, R254; 09, R258, R259, R268, R271, R273; 17, R458, R459): the end
of a retest, the housekeeping round, the NV writes that waited, and the pages it keeps. -/

namespace Sys2Proof.Machine

open Sys2Proof

/-! The retest (08, R253, R254). -/

/-- A driven site has failed the retest: too few good observations, or a bad one at its own or a following sink. -/
def retestBad (d : Shed) (i : Nat) : Bool :=
  (getSite d i).rtOn < cf d.cfgDrv R.diagCfg 31 28 || (groupSites d i).any fun j => (getSite d j).rtBad

/-- Driven sites of function `f` in shed `k`. -/
def drivenSites (s : State) (k f : Nat) : List Nat := (lamps (getShed s k)).filter fun i => siteFn (getShed s k) i == f

/-- The sixteenth period of the retest has ended in shed `k`. -/
def retestOver (s : State) (r : Retest) (k : Nat) : Bool :=
  let d := getShed s k
  markAtOrAfter d.frame r.mark && periodsFrom d r.mark d.frame d.drive.period ≥ 16

/-- Instant of a mark that has passed. -/
def pastMark (s : State) (m : Word) : Nat := s.marks.at_ - (s.marks.count - m).toNat * interval s

/-- RETEST_EVALUATION (08, R254): while a round holds WRITEs it waits. -/
def evalRetest (s : State) : State :=
  match s.therm.retest with
  | none => s
  | some r =>
    let ks := (present s).filter fun k => !(sitesOf (applied s k) r.fn).isEmpty
    if !s.power.fw || writesHeld s || r.back.isSome || (getFn s r.fn).st ≠ 2 || !ks.all (retestOver s r) then s
    else
      let bad := ks.flatMap fun k => ((drivenSites s k r.fn).filter (retestBad (getShed s k))).map fun i => (k, i)
      match bad with
      | (k, i) :: _ =>
        let g := 2048 * k + i
        let v := (getSite (getShed s k) i).verdict
        let s := { s with therm := { s.therm with retest := none } }
        let s := updFn r.fn (fun x => { x with st := 1, failSite := some g, failVerdict := v }) s
        let s := sendFnState r.fn 1 s.marks.count s
        let s := logX 0x0407 1 0 r.sess r.fn (g * 65536 + v) 0 s
        answer r.sess r.entry 0x0401 0x14 0 (clearReply r.fn g r.mark.toNat) s
      | [] =>
        -- 200 µs after the end of the sixteenth period
        let m := markFrom s (pastMark s r.mark + 16 * s.marks.perP * greyClock + 200 * us)
        let s := { s with therm := { s.therm with retest := some { r with back := some m.toNat } } }
        let s := sendFnState r.fn 0 m s
        let s := logX 0x0406 0 0 r.sess r.fn 0 0 s
        answer r.sess r.entry 0x0401 0 0 (clearReply r.fn 0xFFFF r.mark.toNat) s

/-- LT_CAL_CAPTURE_END (07, R213, R214): the shed has reported the 64 periods. -/
def captureDone (s : State) : State := if s.lt.arrived.isSome then endCapture s else s

/-! The housekeeping round (09, R258 to R260). -/

/-- HOUSEKEEPING_ROUND, timed by the link islands (01, R39). A round that not every die has answered is closed first. The period and
the registers are those of this instant (R274, R275). -/
def startHousekeeping (s : State) : State :=
  if !powered s || s.now < s.therm.roundAt + s.therm.roundLen then s
  else
    let s := closeRound s
    let s := { s with therm := { s.therm with regs := some (thermNow s) } }
    commandAll (.round (s.therm.supplies.getD 0 0)) { s with therm := { s.therm with
      roundAt := s.now, roundLen := roundPeriod s, roundDue := true, reported := [], badNow := 0 } }

/-- A condition that lasts: raised when it begins, no cause when it has gone (15, R416). -/
def lastingFault (det : Nat) (here : Bool) (s : State) : State :=
  let was := (getDet s det).cause && (getDet s det).dies.toNat.testBit 0
  if here then (if was then s else raiseFault det 0 s)
  else if (getDet s det).dies.toNat = 1 then setCause det false s else s

/-- A rail trips SUPPLY_OV: above its band it does, below never, within it is open (18, R464; log entry 23). -/
def overVolt (v lo hi draw_ : Nat) : Bool := v > hi || (v > lo && Config.ovTrip draw_)

/-- YARD_ROUND_CONVERSIONS_COMPLETE (09, R259, R260, R271, R273; 15, Table 15.2). -/
def yardRound (r : YardReadings) (s : State) : State :=
  if !powered s then s
  else
    let hottest := max r.core (max r.memory r.network)
    let ts := [r.core, r.memory, r.network]
    let s := if r.refOk then
        { s with therm := { s.therm with yardCore := r.core, yardMem := r.memory, yardNet := r.network
                                         supplies := [r.vbat, r.vio, r.vcore, r.nwSupply] } }
      else s
    let s := dieReading 0 hottest r.refOk s
    let out := r.refOk && ts.any fun t => t < -55 * 16 || t > 210 * 16
    let s := if out then badReading 0 s else s
    let s := lastingFault 0x10 (!r.refOk) s
    let s := if r.refOk then lastingFault 0x11 out s else s
    let (n, s) := draw s
    let s := lastingFault 0x17 (overVolt r.vio 3465 3570 (2 * n) || overVolt r.vcore 832 857 (2 * n + 1)) s
    let s := if r.linesOk then setCause 0x1F false s else if (getDet s 0x1F).cause then s else raiseFault 0x1F 0 s
    roundComplete (evalWindow s)

/-! NV writes that waited (09, R268, R271, R273). -/

/-- A command that waits for a flush is answered (14, R392). -/
def answerWaits (s : State) : State :=
  let ws := s.log.waits
  forAll ws (fun w s => pushReply w.sess w.entry 0 0 [] s) { s with log := { s.log with waits := [] } }

/-- A flush (14, R392): every staged record is written, and the commands that waited are answered. -/
def flushRing (s : State) : State :=
  answerWaits (writeRing 0 { s with store := { s.store with flushDue := false } })

/-- Every pending snapshot is committed (14, R402). -/
def commitSnapshots (s : State) : State :=
  let l := s.log.tackPend
  forAll l (fun p s => tackCommit p.1 s)
    { s with log := { s.log with tackPend := [] }, store := { s.store with tackDue := false } }

/-- NV_DEFERRED_WRITE: what waited for the window is written when it is open (R273). -/
def deferredWrites (s : State) : State :=
  if writesWait s || !s.power.fw then s
  else
    let s := if s.store.tackDue then commitSnapshots s else s
    let s := if s.store.flushDue then flushRing s else s
    let s := if s.store.saveDue then accountSave s else s
    { s with faults := { s.faults with mramWait := 0 } }

/-- ARMED_RECORD_REWRITE (R268). -/
def rearm (s : State) : State :=
  if !s.power.fw || !s.therm.warned || (tjMax s).1 < warnT s || s.now < s.therm.armedAt + sec then s else armRecord s

/-- OVERTEMP_TRIP (R270). -/
def tripDie (die : Nat) (s : State) : State :=
  if !powered s || s.power.tripped.toNat.testBit die then s else overtemp die s

/-- Step 5 of the power-fail flush (02, R81; 14, R394): pending snapshots, then the ring in descending severity and ascending SEQ, by
hot writes. -/
def writePf (flags : Nat) (s : State) : State :=
  let s := commitSnapshots s
  let order := [3, 2, 1, 0].flatMap fun v => s.log.ring.filter fun r => r.sev == v
  let s := forAll order (fun r s => writeSlot { r with flags := BitVec.ofNat 8 (r.flags.toNat ||| flags) } s) s
  let s := { s with log := { s.log with ring := [], flushAt := s.log.opS, urgentAt := none }, therm := { s.therm with hotDue := true } }
  setRegf yardDie R.rstCause 31 24 0 s

/-- DEFERRED_HOT_WRITE (R271; 14, R394): the yard reads at or below 165 °C again. -/
def hotDeferred (s : State) : State :=
  if yardHot s then s
  else
    let s := if s.therm.hotDeferred then commitShutdown true s else s
    if s.power.heldBack && s.power.fail.isNone && s.power.fw then
      writePf (hotFlags true) { s with power := { s.power with heldBack := false } }
    else s

/-- HOT_RECORD_VERIFY (R271): below 125 °C, at Cold Wait exit or at the next start. -/
def hotVerify (readOk rewriteOk : Bool) (s : State) : State :=
  let cool := [s.therm.yardCore, s.therm.yardMem, s.therm.yardNet].all fun t => t < 125 * 16
  if !s.therm.hotDue || inCold s || !s.power.fw || !cool then s
  else if readOk || rewriteOk then setCause 0x1E false { s with therm := { s.therm with hotDue := false } }
  else raiseFault 0x1E 0 s

/-! Pages that the yard writes (R300; 17, Table 17.9). -/

/-- Bytes of a page from offset `off` on, changed. -/
def patch (off : Nat) (bs : List Byte) (p : List Byte) : List Byte := p.take off ++ bs ++ p.drop (off + bs.length)

/-- Byte of the SITES field with the entry of site `g` (08, R243): page and offset. -/
def siteByte (g : Nat) : Nat × Nat := (3 + g / 2 / 3584, 512 + g / 2 % 3584)

/-- The entry of one site (08, R243). -/
def publishSite (v n : Nat) (s : State) : State :=
  let (p, o) := siteByte n
  let b := (winByte s p o).toNat
  storePage p o [BitVec.ofNat 8 (if n % 2 = 0 then b / 16 * 16 + v else b % 16 + 16 * v)] s

/-- One published verdict in the map; that of a paralleled group stands at every member's site (00, R7). -/
def publishOne (x : Nat × Nat × Nat × Nat) (s : State) : State :=
  let (kind, n, members, v) := x
  match kind with
  | 0 => forAll ((List.range members).map (n + ·)) (publishSite (v % 16)) s
  | 1 => storePage 3 (16 + n) [BitVec.ofNat 8 (v % 16)] s
  | _ => storePage 3 (128 + n) [BitVec.ofNat 8 (v % 16)] s

/-- VERDICT_MAP_PUBLISH (08, R244, R245): at most once a frame, both pages as one change, and the event DIAG. -/
def publishVerdicts (s : State) : State :=
  if !s.power.fw || s.diag.due.isEmpty || s.diag.last = some s.marks.count then s
  else
    let l := s.diag.due
    let f := s.marks.count
    let n := (s.diag.changes + l.length) % 2 ^ 32
    let s := beginUpdate 4 (beginUpdate 3 { s with diag := { due := [], changes := n, last := some f } })
    let s := forAll l publishOne s
    let head := le 4 f.toNat ++ le 4 n
    let s := writeBody 4 head (writeBody 3 head s)
    hostEvent 0 n f.toNat s

/-- Holder code of a function (17, Table 17.11). -/
def Holder.code : Holder → Nat
  | .none => 0xFF
  | .session n => n
  | .map => 0xFE

/-- Entry of function `f` (17, Table 17.11). -/
def fnEntry (s : State) (f : Nat) : List Byte :=
  let x := getFn s f
  let ns := (present s).map fun k => (k, (sitesOf (applied s k) f).length)
  let has := (ns.filter fun p => p.2 ≠ 0).map (·.1)
  le 1 (if fnDefined (fnMap s) f then x.st + 1 else 0) ++ le 1 x.holder.code ++ le 1 x.prio
  ++ le 1 (bit01 (fnRegulated (fnMap s) f) + 2 * bit01 x.lit + 4 * bit01 x.lapsed) ++ le 2 (16384 - x.derate)
  ++ le 2 (x.failSite.getD 0xFFFF) ++ le 1 x.failVerdict ++ maskBytes 1 has ++ le 2 (sumN (ns.map (·.2)))

/-- FUNCTION_STATE_TABLE_UPDATE (17, R459): page 5. -/
def updateFnTable (s : State) : State :=
  if !s.power.fw then s
  else devWrite 5 (le 4 s.marks.count.toNat ++ zeros 8 ++ (List.range 256).flatMap (fnEntry s)) s

/-- The valid identity record's body: one whose VARIANT is the fuses' (16, R446). -/
def identity (s : State) : List Byte := ((pickCopy s N.ident fun b => u8 b 8 == s.variant.code).map (·.2)).getD []

/-- ID (17, Table 17.12) from the identity record: variant, yard revision, lowest shed revision, JHP version of the image. -/
def idReg (s : State) : Nat :=
  let b := identity s
  let revs := (List.range (nSheds s)).map fun k => u8 b (17 + k)
  let low := revs.foldl min 255
  let jhp := if (activeSlot s).shipped then Config.shippedJhp.toNat else (Table.get 0 (activeSlot s).image 20).toNat
  s.variant.code * 2 ^ 24 + u8 b 16 * 2 ^ 16 + low * 256 + jhp

/-- PORTS of the device status page (17, Table 17.10). -/
def portsWord (s : State) : Nat :=
  let can := fun (c : Nat) => if yf s (R.canCfg + 8 * c) 31 31 = 1 then (getCan s c).bus else 3
  bit01 s.net.link + 2 * can 0 + 8 * can 1

/-- SHEDS of the device status page. -/
def shedsWord (s : State) : Nat :=
  sumN ((present s).map fun k =>
    let d := getShed s k
    (if d.mode = .fallback then 2 else if d.mode = .joined && !d.resync then 1 else 3) * 16 ^ k)

/-- The words of a list of registers of the sheds, zero for absent ones. -/
def shedMirror (s : State) (n : Nat) : List Byte :=
  (List.range 7).flatMap fun k => le 4 (if isPresent s k then (reg s k n).toNat else 0)

/-- Entry of a session in the device status page. -/
def sessEntry (s : State) (n : Nat) : List Byte :=
  let x := getSess s n
  if x.isOpen then le 1 1 ++ le 1 x.priv.rank ++ le 1 (Source.transport x.src) ++ zeros 1 ++ le 4 (leaseLeft s n) else zeros 8

/-- Body of the device status page from offset 4 (17, Table 17.10). -/
def statusPage (s : State) : List Byte :=
  le 4 (idReg s) ++ le 4 (statusReg s) ++ le 4 s.marks.count.toNat ++ le 4 s.log.opS ++ le 4 s.log.cycles ++ le 4 (faultSum s)
  ++ le 4 (reg s yardDie R.rstCause).toNat ++ le 4 (reg s yardDie R.thermSt).toNat ++ le 4 (reg s yardDie R.govSt).toNat
  ++ le 4 (reg s yardDie R.t1sPres).toNat ++ le 4 (reg s yardDie R.netSt).toNat ++ le 4 (portsWord s) ++ le 4 (shedsWord s)
  ++ le 4 (reg s yardDie R.trgSt).toNat ++ zeros 4 ++ shedMirror s R.linkSt ++ shedMirror s R.govShedSt ++ zeros 8
  ++ (List.range 32).flatMap (fun n => le 4 (faultSt s n))
  ++ (List.range 28).flatMap (fun g => le 4 (if isPresent s (g / 4) then (reg s (g / 4) (R.dimSt + g % 4)).toNat else 0))
  ++ zeros 16 ++ (List.range 16).flatMap (sessEntry s)

/-- DEVICE_STATUS_PAGE_UPDATE (17, R458). -/
def updateStatusPage (s : State) : State := if !s.power.fw then s else devWrite 0 (statusPage s) s

end Sys2Proof.Machine
end

