-- ==== Sys2Proof/Machine/Fw.lean ====
section
/-! DEFINITION. Firmware slots and images (16, R439 to R445), the key store and the identity of the part (16, R446 to R449). -/

namespace Sys2Proof.Machine

open Sys2Proof

/-! Identity. -/

/-- UID: the identity record's, or without a valid record the fuses' (R446; log entry 10). -/
def uidBytes (s : State) : List Byte :=
  if (identity s).isEmpty then (List.range 8).map Config.fuseUid else slice (identity s) 0 8

/-- Ethernet MAC address, first octet first (R446). -/
def macBytes (s : State) : List Byte :=
  if (identity s).isEmpty then 0x02 :: (uidBytes s).take 5 else slice (identity s) 10 6

/-- The MAC address as a number, first octet in the most significant place. -/
def macAddr (s : State) : BitVec 48 := BitVec.ofNat 48 (ofBe (macBytes s))

/-! Key store (Table 16.9). -/

/-- Body of the newer valid copy; at the factory all zero. -/
def keyBody (s : State) : List Byte := (newest s N.keys).getD (zeros 96)

def keyFlags (s : State) : Nat := u8 (keyBody s) 0

/-- Lowest acceptable SVN. -/
def minSvn (s : State) : Nat := u16 (keyBody s) 2

def opKey (s : State) : List Byte := slice (keyBody s) 32 32
def ownKey (s : State) : List Byte := slice (keyBody s) 64 32

/-! Images (Table 16.5, R439). -/

/-- Header of the image in a slot. -/
def imageHead (f : FwSlot) : List Byte := Table.range 0 f.image 0 256

def imageLength (f : FwSlot) : Nat := u32 (imageHead f) 16

/-- SVN of an image. -/
def imageSvn (f : FwSlot) : Nat := if f.shipped then Config.shippedSvn.toNat else u16 (imageHead f) 12

/-- Header fields that R439 fixes. -/
def headOk (h : List Byte) : Bool :=
  u32 h 0 == 0x4A584657 && u16 h 4 == 1 && u16 h 6 == 256 && u8 h 14 < 8 && u8 h 15 < 2 && (slice h 22 10).all (· == 0)
  && (slice h 192 64).all (· == 0) && 256 + u32 h 16 ≤ 2093056

/-- Bit of VARIANTS for a family member. -/
def Variant.index : Variant → Nat
  | .zlk2 => 0
  | .zlk4 => 1
  | .zlk8 => 2

/-- The body's digest matches. -/
def digestOk (f : FwSlot) : Bool := sha256 (Table.range 0 f.image 256 (imageLength f)) == slice (imageHead f) 32 32

/-- PUBKEY is a root key and SIG verifies. -/
def signatureOk (f : FwSlot) : Bool :=
  let h := imageHead f
  sha256 (slice h 64 64) == Config.rootKeyHash (u8 h 15) && ecdsaVerify (slice h 64 64) (slice h 128 64) (sha256 (slice h 0 128))

/-- SVN is at or above MIN_SVN. -/
def svnOk (s : State) (f : FwSlot) : Bool := minSvn s == 0 || minSvn s ≤ imageSvn f

/-- The first check of R439 that an image fails, as DETAIL of R443 numbers them. The shipped image passes all but that of SVN (log
entry 11). -/
def imageFault (s : State) (f : FwSlot) : Option Nat :=
  let h := imageHead f
  if !f.shipped && !headOk h then some 2
  else if !f.shipped && !digestOk f then some 3
  else if !f.shipped && !signatureOk f then some 4
  else if !svnOk s f then some 5
  else if !f.shipped && !(u8 h 14).testBit s.variant.index then some 6
  else none

/-! Slots (Table 16.6). -/

def slotOf (s : State) (i : Nat) : FwSlot := if i = 0 then s.store.slotA else s.store.slotB

def setSlot (i : Nat) (f : FwSlot) (s : State) : State :=
  { s with store := if i = 0 then { s.store with slotA := f } else { s.store with slotB := f } }

/-- State of slot `i`: 0 INCOMPLETE, 1 INVALID, 2 VALID, 3 ACTIVE. -/
def slotState (s : State) (i : Nat) : Nat :=
  let f := slotOf s i
  if s.store.active = i then 3 else if f.installed.isNone then 0 else if f.bad then 1 else 2

/-- The slot that is not ACTIVE. -/
def inactive (s : State) : Nat := 1 - s.store.active

/-- The boot ROM's verification of every installed slot (R440). -/
def verifySlots (s : State) : State :=
  forAll [0, 1] (fun i s =>
    let f := slotOf s i
    if f.installed.isNone then s else setSlot i { f with bad := f.bad || (imageFault s f).isSome } s) s

/-- The slot that the boot ROM starts (R440). -/
def bootSlot (s : State) : Option Nat :=
  let order := if s.store.slotA.activated < s.store.slotB.activated then [1, 0] else [0, 1]
  order.find? fun i => (slotOf s i).installed.isSome && !(slotOf s i).bad

end Sys2Proof.Machine
end

