-- ==== Sys2Proof/Machine/StartOps.lean ====
section
/-! DEFINITION. How a commit round begins and when it is given up (05, R149, R155, R163; 11, R333; 15, R412, R428). -/

namespace Sys2Proof.Machine

open Sys2Proof

/-- A round may start (05, R155): none runs, the last one's apply mark lies 20 µs back, and WRITEs are free. -/
def roundFree (s : State) : Bool :=
  s.scene.round.isNone && decide (s.power.phase = .done) && s.power.fail.isNone && !writesHeld s
  && (s.scene.applyMark.isNone || s.now ≥ s.scene.applyAt + 20 * us)

/-- Every shed serves, or what waits has waited 25 ms for one that does not (05, R155). -/
def shedsReady (s : State) : Bool :=
  (present s).all (shedServing s) || (s.scene.waiting.any fun c => s.now ≥ c.checked + 25 * ms)
  || (match s.scene.heldSince with | some t => s.now ≥ t + 25 * ms | none => false)

/-- A round without a present shed is committed as soon as it starts. -/
def startOrCommit (cs : List Commit) (lapses : List Nat) (values : List (Nat × Nat)) (edits : List Edit) (after : Table Img)
    (safe restore : Bool) (s : State) : State :=
  let s := startRound cs lapses values edits after safe restore false s
  match s.scene.round with
  | some r => if r.sheds.isEmpty then sendCommit r (applyMarkOf s r.commits) s else s
  | none => s

/-- The SAFE round (15, R412): the stored Stable scene with the programs left as they are; without a valid one, FALLBACK. -/
def safeRound (s : State) : State :=
  if (pickCopy s N.stable (imageFits s)).isNone then broadcastFallback s
  else
    let stable := storedStable s
    let after := mapImgs (present s) fun k => sceneWords (Table.get [] stable k) ++ progWords (applied s k)
    startOrCommit [] [] [] [] after true false s

/-- The round of what waits: commits, lapses and message-map values (05, R149, R155; 11, R333). -/
def ordinaryRound (s : State) : State :=
  let cs := s.scene.waiting
  let lapses := s.scene.heldLapses
  let values := s.scene.heldValues.map fun p => (p.1, p.2 - 1)
  let host := cs.flatMap (·.edits)
  let mid := { s with scene := { s.scene with applied := applyEdits host s.scene.applied } }
  let edits := host ++ lapses.flatMap (lapseEdits mid (storedStable s)) ++ values.flatMap fun p => fnValueEdits mid p.1 p.2
  let s := { s with scene := { s.scene with waiting := [], heldLapses := [], heldValues := [], lapsesFirst := [] } }
  startOrCommit cs lapses values edits (applyEdits edits s.scene.applied) false false s

/-- COMMIT_ROUND_START. The SAFE round comes first and needs no firmware; the restore round precedes what waits. -/
def beginRound (s : State) : State :=
  if !roundFree s || !shedsReady s then s
  else if s.scene.safeWanted then safeRound s
  else if safeOn s || !s.power.fw then s
  else if s.scene.restoreDue then
    match s.scene.replaced with
    | some t => startOrCommit [] [] [] [] t false true s
    | none => { s with scene := { s.scene with restoreDue := false } }
  else if s.scene.waiting.isEmpty && s.scene.heldLapses.isEmpty && s.scene.heldValues.isEmpty then s
  else ordinaryRound s

/-- The words of the round for shed `k` again, and then a second PREPARE (R157). -/
def secondTry (r : Round) (k : Nat) (s : State) : State := writeWords k (((r.words.find? fun p => p.1 == k).map (·.2)).getD []) s

/-- COMMIT_TIMEOUT (05, R163): 500 µs after the last PREPARE, unless a retry to a shed that is waited for is pending. The loader first
writes a silent shed again and sends it a second PREPARE (02, R57). -/
def roundTimeout (s : State) : State :=
  match s.scene.round with
  | none => s
  | some r =>
    let left := r.sheds.filter fun k => !r.ok.contains k
    if r.prepared.isEmpty || !r.redo.isEmpty || s.now < r.preparedAt + 500 * us || left.any (fun k => retryPending s k true) then s
    else if r.boot && left.all (fun k => !r.second.contains k) then
      let s := { s with scene := { s.scene with round := some { r with second := r.second ++ left, redo := left } } }
      roundProgress (forAll left (secondTry r) s)
    else
      let s := abortRound 0x11 0 0 s
      if r.boot then
        reportLoad { s with power := { s.power with loadFailed := true }
                            scene := { s.scene with loadFails := s.scene.loadFails ++ left } }
      else s

end Sys2Proof.Machine
end

