-- ==== Sys2Proof/Machine/PowerOps.lean ====
section
/-! DEFINITION. Supplies, resets, power-fail, Night Watch and the start of the firmware (02; 14, R386 to R395; 16, R440). -/

namespace Sys2Proof.Machine

open Sys2Proof

/-! Reset scopes (Table 2.8). -/

/-- Registers of the Night Watch domain. -/
def nightRegs : List Nat := [R.nwCfg, R.nwWake, R.nwTimer, R.nwWcode, R.rstCause]

/-- The stores through a reset: an install is abandoned (16, R444), waiting writes are not made. -/
def keepStore (st : Store) : Store :=
  let void := fun (f : FwSlot) => { f with installed := none }
  let st := match st.install with
    | some _ => if st.active = 0 then { st with slotB := void st.slotB } else { st with slotA := void st.slotA }
    | none => st
  { st with queue := [], install := none, saveDue := false, flushDue := false, tackDue := false, defaulted := false }

/-- What no reset reaches: MRAM and the model's own counters. -/
def keepMram (s : State) : State :=
  { State.reset with
    pending := s.pending, now := s.now, free := s.free, variant := s.variant, nextEntry := s.nextEntry
    store := keepStore s.store
    log := { Log.init with slots := s.log.slots, tack := s.log.tack, lastSlot := s.log.lastSlot }
    net := { Net.init with out := s.net.out }
    therm := { Thermal.init with hotDue := s.therm.hotDue } }

/-- What a shed keeps of its diagnostics through a reset of its logic: the verdicts (08, R232). -/
def bareVerdicts (d : Shed) : Shed :=
  let unit := fun (t : Table OutUnit) => t.filterMap fun p =>
    if p.2.verdict = 0 then none else some (p.1, { OutUnit.init with verdict := p.2.verdict })
  { Shed.init with
    sites := mapSites (fun _ x => { Site.init with verdict := x.verdict, offOnly := x.offOnly, mine := x.mine, mineOff := x.mineOff }) d.sites
    switches := unit d.switches, boosters := unit d.boosters }

/-- The verdicts of `s` stand in the state `k` after a reset, in the sheds and in the pages of the map (08, R232, R243). -/
def keepVerdicts (s k : State) : State :=
  { k with
    sheds := s.sheds.filterMap fun p => let d := bareVerdicts p.2; if d = Shed.init then none else some (p.1, d)
    win := { k.win with mem := s.win.mem.filter fun p => (p.1 / 4096 == 3 || p.1 / 4096 == 4) && p.1 % 4096 ≥ 16 } }

/-- Everything but the Night Watch domain is reset (Table 2.8, RESET_N scope; R63); verdicts stay, with those that wait to be published (08,
R232). -/
def resetYard (s : State) : State :=
  let k := keepVerdicts (forAll s.diag.due publishOne s) (keepMram s)
  let p := s.power
  { k with
    regs := s.regs.filter fun r => nightRegs.any fun n => r.1 == regKey yardDie n
    power := { Power.init with
      vbat := p.vbat, vio := p.vio, vcore := p.vcore, pwrEn := p.pwrEn, pwrEnAt := p.pwrEnAt, resetLow := p.resetLow
      por := false, lossNew := p.lossNew, wakeActive := p.wakeActive, wakePending := p.wakePending, check := p.check, timerSince := p.timerSince
      osc := p.osc, mode := if p.mode = .nightWatch then .nightWatch else .startup, failLevel := p.failLevel } }

/-- Every supply is valid. -/
def suppliesValid (s : State) : Bool := s.power.vbat && s.power.vio && s.power.vcore

/-- The Night Watch domain releases the yard and the sheds, as far as supplies, RESET_N and a running flush allow (R46, R74). With the
Cold Wait flag set, STEPS begins at 8 (09, R269). -/
def releaseYard (s : State) : State :=
  if suppliesValid s && !s.power.resetLow && !s.power.resetFlush && s.power.phase = .held && s.power.mode = .startup then
    let s := { s with power := { s.power with phase := .released, validAt := s.now } }
    if yf s R.rstCause 8 8 == 1 then setRegf yardDie R.thermSt 15 12 8 s else s
  else s

/-- SUPPLY_VALID (R46). In a wake-frame check the window starts, and the sheds stay in reset (R67). -/
def supplyUp (s : State) : State :=
  if suppliesValid s then s
  else
    let s := { s with power := { s.power with vbat := true, vio := true, vcore := true } }
    match s.power.check with
    | some _ => if s.power.pwrEn then { s with power := { s.power with check := some { since := s.now } } } else s
    | none => releaseYard s

/-- CRYSTAL_STABLE (18, R467; Table 2.2): the yard PLLs lock. -/
def crystalUp (s : State) : State :=
  if s.power.phase = .released then { s with power := { s.power with phase := .clocked, crystal := true } }
  else if s.power.check.isSome && s.power.pwrEn then { s with power := { s.power with crystal := true } }
  else s

/-- PWR_EN_STARTUP (R70). -/
def pwrEnUp (s : State) : State :=
  if s.power.pwrEn || s.power.mode ≠ .startup then s
  else { s with power := { s.power with vbat := true, pwrEn := true, pwrEnAt := s.now } }

/-! The power-fail flush (R81; 14, R394). -/

/-- Work of step 5 in record times: a snapshot counts as eight (14, R394). -/
def pfWork (s : State) : Nat := 8 * s.log.tackPend.length + s.log.ring.length

/-- A flush begins: the number of staged records goes to RST_CAUSE.PF_LOST. -/
def beginFlush (s : State) : State :=
  setRegf yardDie R.rstCause 31 24 (min 255 s.log.ring.length) { s with power := { s.power with lossNew := true } }

/-- The flush runs to its end: an armed shutdown record, snapshots and ring, and the accounting record. Above 165 °C nothing is
written, and what is staged waits (14, R394). -/
def runFlush (s : State) : State :=
  if yardHot s then { s with power := { s.power with heldBack := true } }
  else accountSave (writePf (hotFlags false) (commitShutdown s.therm.hotDeferred s))

/-- The supplies fail within the flush: what step 5 has written by then is bounded below by its times and otherwise open (R82; 14,
R394; log entry 14). Step 5 begins 55 µs after detection, a record takes 15 µs, and the accounting record 700 µs. -/
def cutFlush (s : State) : State :=
  match s.power.fail with
  | none => s
  | some f =>
    if f.flushed || yardHot s then s
    else
      let (n, s) := draw s
      let work := pfWork s
      let least := (s.now - f.at_ - 55 * us) / (15 * us)
      let done := min work (max least (Config.flushed n))
      let s := commitShutdown s.therm.hotDeferred s
      let snaps := s.log.tackPend.take (done / 8)
      let s := forAll snaps (fun p s => tackCommit p.1 s) s
      let order := [3, 2, 1, 0].flatMap fun v => s.log.ring.filter fun r => r.sev == v
      let k := done - 8 * s.log.tackPend.length
      let s := forAll (order.take k) (fun r s => writeSlot { r with flags := BitVec.ofNat 8 (r.flags.toNat ||| hotFlags false) } s) s
      let s := setRegf yardDie R.rstCause 31 24 (min 255 (order.length - k)) s
      let whole := 55 * us + work * 15 * us + 700 * us ≤ s.now - f.at_
      let (m, s) := draw s
      if done = work && (whole || Config.flushed m ≠ 0) then accountSave s else s

/-- POWER_FAIL_DETECTED (R81 steps 1 and 2, R86). While a dip lasts, a second fall begins the flush again. -/
def powerFail (s : State) : State :=
  let modes := s.power.mode = .run ∨ s.power.mode = .update ∨ s.power.mode = .coldWait
  if !decide modes || s.power.resetFlush then s
  else
    match s.power.fail with
    | some f =>
      match f.backAt with
      | none => s
      | some _ =>
        beginFlush { s with power := { s.power with
          vbat := false, fail := some { f with backAt := none, flushed := false } } }
    | none =>
      let lanes := (List.range 16).filter fun g => (getLane s g).st ≠ .stopped
      let s := log 0x0003 1 s.log.ring.length 0 s
      let s := abandonInstall (outputsEnd 3 s)
      let s := stopLanes lanes s
      beginFlush { s with power := { s.power with
        vbat := false, fail := some { at_ := s.now, flushed := false, backAt := none, lowest := 0, lanes := lanes } } }

/-- POWER_FAIL_FLUSH_DONE (R81, R74 step 3). -/
def flushDone (s : State) : State :=
  match s.power.fail with
  | none => s
  | some f =>
    if f.flushed then s
    else
      let s := runFlush s
      if s.power.resetFlush then releaseYard (resetYard s)
      else { s with power := { s.power with fail := some { f with flushed := true } } }

/-- VBAT_RETURN (R85): `lowest` is the lowest VBAT of the dip in mV. -/
def vbatBack (lowest : Nat) (s : State) : State :=
  match s.power.fail with
  | none => s
  | some f =>
    if f.backAt.isSome || !s.power.vio || !s.power.vcore then s
    else { s with power := { s.power with
      vbat := true, fail := some { f with backAt := some s.now, lowest := if f.lowest = 0 then lowest else min f.lowest lowest } } }

/-- DIP_RESUME (R85; 13, Table 13.8): the outputs resume at the next mark. -/
def dipResume (s : State) : State :=
  match s.power.fail with
  | none => s
  | some f =>
    match f.backAt with
    | none => s
    | some t =>
      if !f.flushed || s.power.resetFlush || s.now < t + ms then s
      else
        let s := setRegf yardDie R.rstCause 0 0 1 s
        let s := { s with power := { s.power with fail := none, resumeAt := some s.now } }
        let s := startLanes f.lanes s
        log 0x0005 1 f.lowest ((t - f.at_) / ms) s

/-! Resets of the RESET_N scope (R74). -/

/-- POWER_ON_RESET (R69): everything, the Night Watch domain included. A running flush is cut. -/
def powerOn (s : State) : State := { keepMram (cutFlush s) with power := { Power.init with failLevel := s.power.failLevel } }

/-- RAIL_BROWNOUT (R74, R69): VIO or VCORE becomes invalid. With PWR_EN low it is no reset; with VBAT invalid as well the supplies
have failed, and RST_CAUSE.BROWNOUT stays. -/
def railLoss (s : State) : State :=
  if !s.power.vio && !s.power.vcore then s
  else
    let down := fun (s : State) => { s with power := { s.power with vio := false, vcore := false } }
    if !s.power.pwrEn || (s.power.phase = .held && s.power.check.isNone && s.power.fail.isNone) then down s
    else
      let brown := s.power.vbat
      let s := down (resetYard (cutFlush s))
      if brown then setRegf yardDie R.rstCause 5 5 1 { s with power := { s.power with lossUnknown := true } } else s

/-- RESET_N_ASSERT, for a pulse of `width` ns so far (R74, R69): outputs off, and the power-fail flush begins; what it writes is kept
until it is done. In a wake-frame check PWR_EN is high while the yard is still held: the pin is recorded and the check goes on, which
the spec leaves open (log entry 188). -/
def resetPin (width : Nat) (s : State) : State :=
  if !s.power.pwrEn || s.power.resetLow || width < 100 then s
  else
    let (n, s) := if width < us then draw s else (0, s)
    if width < us && !Config.shortReset n then s
    else
      let s := setRegf yardDie R.rstCause 6 6 1 { s with power := { s.power with resetLow := true } }
      if s.power.phase = .held then s
      else
        let k := resetYard s
        let th := { k.therm with
          yardCore := s.therm.yardCore, yardMem := s.therm.yardMem, yardNet := s.therm.yardNet, armed := s.therm.armed
          hotDeferred := s.therm.hotDeferred }
        beginFlush { k with
          log := s.log, fns := s.fns, therm := th
          power := { k.power with
            resetFlush := true, hotTrip := s.power.hotTrip
            fail := some { at_ := s.now, flushed := false, backAt := none, lowest := 0, lanes := [] } } }

/-- RESET_N_RELEASE (R74). -/
def resetPinUp (s : State) : State :=
  if !s.power.resetLow then s else releaseYard { s with power := { s.power with resetLow := false } }

/-! Night Watch (R63 to R69). -/

/-- The entry is abandoned (R64): the last applied frame shows again at the next mark. -/
def abandonNight (src : Nat) (s : State) : State :=
  let s := { s with power := { s.power with entry := none, resumeAt := some s.now } }
  hostEvent 5 0 3 (log 0x0007 0 src 0 s)

/-- Entry into Night Watch is accepted and the wake sources are armed (R63; 14, Table 14.3). An enabled pin whose active level wakes is
a wake event at once (R64, Table 2.6). -/
def acceptNight (idle : Bool) (s : State) : State :=
  let was := eventMode s.power.mode
  let s := log 0x0006 0 (bit01 idle) 0 s
  let s := { s with power := { s.power with entry := some { at_ := s.now, idle := idle, outputsOff := false } } }
  let s := hostEvent 5 3 was s
  match (List.range 4).find? fun p =>
      (yf s R.nwCfg 11 8).testBit p && s.power.wakeActive.toNat.testBit p && !(reg s yardDie R.nwWake).bit (8 * p + 6) with
  | some p => abandonNight (p + 1) s
  | none => s

/-- NW_IDLE_TIMEOUT (R63). -/
def idleTimeout (s : State) : State :=
  let n := yf s R.nwCfg 31 16
  match s.power.idleSince with
  | none => s
  | some t =>
    if n = 0 || s.power.mode ≠ .run || s.power.entry.isSome || flushRuns s || !s.power.ready || s.now < t + n * sec then s
    else acceptNight true s

/-- Night Watch: the yard and the sheds in reset, PWR_EN low, the wake timer running (R63, R68). -/
def nightWatch (s : State) : State :=
  let s := resetYard s
  { s with power := { s.power with mode := .nightWatch, pwrEn := false, pwrEnAt := s.now, timerSince := s.now, check := none } }

/-- NW_FLUSH_DONE (Table 2.4; 14, R386, R392, R393, R407). -/
def nightDone (s : State) : State :=
  match s.power.entry with
  | none => s
  | some e =>
    if !e.outputsOff || flushRuns s then s
    else
      let s := releaseSuppressed s
      nightWatch (if yardHot s then s else accountSave (writeRing 8 (commitSnapshots { s with therm := { s.therm with hotDue := true } })))

/-- A full start from Night Watch (R65, R67): a wake source is recorded. -/
def fullStart (s : State) : State :=
  let s := setRegf yardDie R.nwTimer 31 24 0 (setRegf yardDie R.rstCause 4 4 1 s)
  releaseYard { s with power := { s.power with mode := .startup, check := none } }

/-- A running check becomes a full start; the crystal may run already. -/
def endCheck (s : State) : State :=
  let x := s.power.crystal
  let s := fullStart s
  if x && s.power.phase = .released then { s with power := { s.power with phase := .clocked } } else s

/-- A wake source other than a wake frame acts (R64 to R67). -/
def wake (src : Nat) (s : State) : State :=
  if s.power.entry.isSome then abandonNight src s
  else if s.power.mode ≠ .nightWatch || (s.power.wakePending && s.power.check.isNone) then s
  else
    let s := setRegf yardDie R.rstCause 19 16 src s
    if s.power.pwrEn then endCheck s else { s with power := { s.power with wakePending := true, check := none } }

/-- Pin `p` is an enabled wake source. -/
def wakeEnabled (s : State) (p : Nat) : Bool := (yf s R.nwCfg 11 8).testBit p

/-- The binding of a WAKE pin raises its trigger in Run (06, Table 6.9, R188), and in Cold Wait as in Run (R62). -/
def wakeTrigger (p : Nat) (active : Bool) (s : State) : State :=
  let w := wakeBinding s p
  if s.power.fw && (decide (s.power.mode = .run) || inCold s) && w.testBit 7 && (w.testBit 6 != active) then
    raiseTrigger (w % 64) (controlMark s) s
  else s

/-- WAKE_PIN_EVENT (R66; 06, Table 6.9). -/
def wakePin (p : Nat) (s : State) : State :=
  if s.power.wakeActive.toNat.testBit p then s
  else
    let s := { s with power := { s.power with wakeActive := BitVec.ofNat 4 (setBit s.power.wakeActive.toNat p) } }
    wakeTrigger p true (if wakeEnabled s p then wake (p + 1) s else s)

/-- WAKE_PIN_INACTIVE. -/
def wakePinOff (p : Nat) (s : State) : State :=
  if !s.power.wakeActive.toNat.testBit p then s
  else wakeTrigger p false { s with power := { s.power with wakeActive := BitVec.ofNat 4 (clrBit s.power.wakeActive.toNat p) } }

/-- LINK_ENERGY_DETECTED (11, R337; R66, R67). -/
def linkEnergy (s : State) : State :=
  if yf s R.nwCfg 7 7 = 0 then s
  else if s.power.entry.isSome || yf s R.nwCfg 6 6 = 0 then wake 5 s
  else if s.power.mode ≠ .nightWatch || s.power.wakePending || s.power.pwrEn then s
  else { s with power := { s.power with wakePending := true, check := some { since := s.now } } }

/-- WAKE_TIMER_EXPIRY (R68). The timer is disabled until the oscillator is in band (18, Table 18.4). -/
def wakeTimer (s : State) : State :=
  let n := yf s R.nwTimer 23 0
  if yf s R.nwCfg 5 5 = 0 || n = 0 || !s.power.osc || s.power.mode ≠ .nightWatch || s.now < s.power.timerSince + n * sec then s else wake 7 s

/-- A frame's payload holds the wake pattern at its start (11, R338). -/
def wakeHere (pattern code : List Byte) (p : List Byte) : Bool :=
  p.take pattern.length == pattern && (code.all (· == 0) || (p.drop pattern.length).take 4 == code)

/-- A frame's payload holds the wake pattern at any offset. -/
def wakeMatch (pattern code : List Byte) : List Byte → Bool
  | [] => false
  | b :: r => wakeHere pattern code (b :: r) || wakeMatch pattern code r

/-- The wake pattern of the part. -/
def wakePattern (s : State) : List Byte :=
  List.replicate 6 0xFF ++ (List.replicate 16 (macBytes s)).flatten

/-- End of the wake-frame window (R67). -/
def windowEnd (s : State) (c : WakeCheck) : Nat := c.since + 50 * ms * (yf s R.nwCfg 2 0 + 1)

/-- WAKE_FRAME (R67; 11, R338): in the window of a check the start continues. -/
def wakeFrameIn (payload : List Byte) (s : State) : State :=
  match s.power.check with
  | none => s
  | some c =>
    if !s.power.pwrEn || !suppliesValid s || s.now > windowEnd s c
        || !wakeMatch (wakePattern s) (le 4 (reg s yardDie R.nwWcode).toNat) payload then s
    else endCheck (setRegf yardDie R.rstCause 19 16 6 s)

/-- WAKE_FRAME_WINDOW_EXPIRY (R67): back to Night Watch, and the check is counted. -/
def windowExpired (s : State) : State :=
  match s.power.check with
  | none => s
  | some c =>
    if !s.power.pwrEn || !suppliesValid s || s.now < windowEnd s c then s
    else nightWatch (bumpReg yardDie R.nwTimer 31 24 s)

/-- PWR_EN_WAKE_RISE (R65). -/
def wakeRise (s : State) : State :=
  if !s.power.wakePending || s.power.pwrEn || s.now < s.power.pwrEnAt + 5 * ms then s
  else
    let s := { s with power := { s.power with wakePending := false, pwrEn := true, pwrEnAt := s.now } }
    match s.power.check with
    | some _ => { s with power := { s.power with check := some { since := s.now } } }
    | none => fullStart s

/-- NW_ENTER (R63; 17, Table 17.3; 05, Table 5.10). -/
def nightBody (_ : Entry) (s : State) : Rep × State :=
  if s.power.mode = .update then (rErrD 0x0E 1, s)
  else if inCold s then (rErrD 0x0E 2, s)
  else if flushRuns s then (rErrD 0x0E 3, s)
  else if s.power.entry.isSome then (rErrD 0x0E 5, s)
  else (rOk [], acceptNight false s)

/-! The start of the firmware (R76; 14, R395; 16, R440). -/

/-- No valid identity record: MRAM_UE, not counted for escalation (16, R446). -/
def identityCheck (s : State) : State :=
  if !(identity s).isEmpty then s
  else
    let old := (getDet s 0x01).raises
    let s := raiseFault 0x01 0 (setDet 0x01 { getDet s 0x01 with raises := [] } s)
    setDet 0x01 { getDet s 0x01 with raises := old } s

/-- Faults raised while the firmware did not run are recorded (14, R387). -/
def recordMissed (s : State) : State :=
  let l := s.faults.unrecorded
  forAll l (fun f s => recordFault f.1 (effClass s f.1) f.2.1 f.2.2 s) { s with faults := { s.faults with unrecorded := [] } }

/-- Service opens: READY (10, Table 10.14). -/
def openService (s : State) : State := setIrq 7 { s with power := { s.power with ready := true, warm := false } }

/-- Records of a start, in the order of 14 R395, and the accounting copy (14, R407). -/
def startRecords (s : State) : State :=
  let torn := tornCount s
  let pf := if s.power.lossNew then yf s R.rstCause 31 24 else 0
  let acct := match s.store.accA, s.store.accB with
    | some a, some b => if a.save < b.save then (some 1, true) else (some 0, true)
    | some _, none => (some 0, false)
    | none, some _ => (some 1, false)
    | none, none => ((none : Option Nat), false)
  let unknown := s.power.lossUnknown
  let s := log 0x0001 0 (reg s yardDie R.rstCause).toNat (fwVersion s) s
  let s := if torn ≠ 0 then log 0x0603 0 torn 0 s else s
  let s := if unknown then log 0x0004 1 0xFFFFFFFF 0 s else if pf ≠ 0 then log 0x0004 1 pf 0 s else s
  let s := if acct.2 then s else log 0x0605 1 (acct.1.getD 0xFF) 0 s
  { s with power := { s.power with lossUnknown := false, lossNew := false }, store := { s.store with acctCopy := acct.1 } }

/-- The first start of the firmware in a start of the yard. It ends the start-up, in Run or, with the flag set, in Cold Wait
(Table 2.2, R59, R61). -/
def coldStart (s : State) : State :=
  let s := if s.power.mode ≠ .startup then s
    else if yf s R.rstCause 8 8 == 1 then enterCold s
    else { s with power := { s.power with mode := .run } }
  -- the sheds that the loader has reached take their calibration (07, R207)
  let s := if s.power.phase = .clocked then s else forAll (reached s) (fun k s => sendCal k [] s) s
  let s := startRecords (startScan s)
  let s := identityCheck (recordMissed (reportLoad (reportDefaulted s)))
  let s := setSess 0 { sessionZero s with cursor := oldestVisible s } s
  accountWrite (openService (autoLanes s))

/-- The restart after a controller warm reset (R76; 05, Table 5.10; 08, R249; 14, R392; 13, Table 13.8). -/
def warmStart (was : Nat) (s : State) : State :=
  let inc := match shadowOf s .yard with | some x => x.inc | none => 0
  let s := match s.scene.round with
    | some r => if r.boot || r.safe then s else abortRound 0 0 inc s
    | none => s
  let s := { s with
    scene := { s.scene with lastId := match s.scene.round with | some r => r.id | none => (reg s yardDie R.commitLogLo).toNat }
    therm := { s.therm with derateStart := true } }
  let s := mapTake s
  let s := beginRound s
  let s := { s with scene := { s.scene with lapsesFirst := s.scene.heldLapses } }
  let s := logX 0x0002 1 0 255 (yf s R.rstCause 3 1) s.marks.count.toNat inc s
  let s := if s.store.active ≠ was && (slotOf s was).activated < (activeSlot s).activated then
      log 0x0A04 0 (fwVersion s) s.store.active s else s
  let s := reportLoad (recordMissed s)
  let s := if writesWait s then { s with store := { s.store with flushDue := true } } else flushRing s
  let s := autoLanes s
  let s := forAll ((present s).filter fun k => (getLink s k).trained) (fun k s =>
    forAll (List.range 8) (fun i s => toShed k (.readReq (A.fnState + 32 * i)) s) s) s
  openService (resumeShadow (fun b => decide (b = .yard)) (renew 0 s))

/-- FIRMWARE_START (16, R440; R58): the boot ROM verifies the slots and starts the first that passes. -/
def startFirmware (s : State) : State :=
  if !powered s || s.power.fw || s.power.resetLow || s.power.check.isSome || (getDet s 0x1C).raised then s
  else
    let was := s.store.active
    let s := verifySlots s
    match bootSlot s with
    | none => raiseFault 0x1C 0 { s with power := { s.power with warm := false } }
    | some i =>
      let warm := s.power.warm
      let s := { s with store := { s.store with active := i }, power := { s.power with fw := true } }
      let s := if s.net.arpDue then announce s else s
      if warm then warmStart was s else coldStart s

/-- WATCHDOG_EXPIRY (15, Table 15.2). -/
def watchdog (s : State) : State := if s.power.fw then raiseFault 0x04 0 s else s

/-- NW_OSCILLATOR_IN_BAND (15, detector 0x08). -/
def oscillatorUp (s : State) : State := { s with power := { s.power with osc := true } }

end Sys2Proof.Machine
end

