-- ==== Sys2Proof/Machine/BookOps.lean ====
section
/-! DEFINITION. The commands and timers of the Logbook, the Tack Room and the accounting (14, R382 to R408; 17, Table 17.3). -/

namespace Sys2Proof.Machine

open Sys2Proof

/-! Commands. -/

/-- LOG_CURSOR (R396). -/
def cursorBody (n : Nat) (e : Entry) (s : State) : Rep × State :=
  let v := u32 e.payload 4
  if u8 e.payload 0 > 3 then (rErr 4, s)
  else
    let c := match u8 e.payload 0 with
      | 0 => oldestVisible s
      | 1 => s.log.nextSeq
      | 2 => v
      | _ => match (logView s).find? fun r => r.1.opS ≥ v with
        | some r => r.1.seq
        | none => s.log.nextSeq
    (rOk (le 4 c), updSess n (fun x => { x with cursor := c }) s)

/-- Records that a fetch returns, at most `max`, and the SEQ of the last record examined (R397). -/
def takeRecs (sev : Nat) : (max : Nat) → (last : Nat) → List (LogRec × Bool) → List (LogRec × Bool) × Nat
  | _, last, [] => ([], last)
  | 0, last, _ => ([], last)
  | m + 1, _, r :: l =>
    if r.1.sev < sev then takeRecs sev (m + 1) r.1.seq l
    else let t := takeRecs sev m r.1.seq l; (r :: t.1, t.2)

/-- Page of the bulk transfer area that the session holds. -/
def holdsBulk (s : State) (n p : Nat) : Bool := bulkPage p && holds s n p

/-- LOG_FETCH (R397, Table 14.6). -/
def fetchBody (n : Nat) (e : Entry) (s : State) : Rep × State :=
  let pg := u8 e.payload 0
  let max := u8 e.payload 1
  let sev := u8 e.payload 2
  if max = 0 || max > 127 || sev > 3 || !(pg == 2 || bulkPage pg) then (rErr 4, s)
  else if pg ≠ 2 && !holds s n pg then (rErr 6, s)
  else
    let cur := (getSess s n).cursor
    let view := (logView s).filter fun r => !seqBefore r.1.seq cur
    let t := takeRecs sev max 0 view
    let first := match view with | r :: _ => r.1.seq | [] => cur
    let next := if t.2 = 0 then cur else seqNext t.2
    let s := updSess n (fun x => { x with cursor := next }) s
    let body := le 1 n ++ le 1 t.1.length ++ zeros 2 ++ le 4 first ++ le 4 next ++ le 4 (newestSeq s) ++ le 4 s.log.clearSeq
      ++ le 4 s.log.ring.length ++ zeros 4 ++ t.1.flatMap fun r => recBytes r.1 r.2
    let s := if pg = 2 then devWrite 2 body s else fillHeld n pg 0 (zeros 4 ++ body) s
    let gen := if pg = 2 then evenGen s 2 else (getOwn s pg).gen.toNat
    (rOk (le 4 gen ++ le 1 t.1.length ++ zeros 3), s)

/-- A flush that is due now, or waits (R392, R393). -/
def flushNow (s : State) : State :=
  if writesWait s then { s with store := { s.store with flushDue := true } } else flushRing s

/-- LOG_FLUSH (R392): answered when what is staged has been written. -/
def flushBody (n : Nat) (e : Entry) (s : State) : Rep × State :=
  let w : FlushWait := { sess := n, entry := e.id, tag := e.tag, upTo := newestSeq s }
  (.later, flushNow { s with log := { s.log with waits := s.log.waits ++ [w] } })

/-- LOG_CLEAR (R398). -/
def logClearBody (n : Nat) (s : State) : Rep × State :=
  if inCold s then (rErrD 0x0E 2, s)
  else if flushHeld s then (rErrD 0x0E 4, s)
  else
    let s := flushRing s
    let vis := (s.log.slots.map (·.2)).filter (visible s)
    let last := newestOf (vis.map (·.seq))
    let c := s.log.nextSeq
    let s := accountSave { s with log := { s.log with clearSeq := c } }
    (rOk (le 4 c), logX 0x0601 1 0 n vis.length last 0 s)

/-- LOG_SET_WALL (R399). -/
def wallBody (n : Nat) (e : Entry) (s : State) : Rep × State :=
  let v := u32 e.payload 0
  let old := s.log.wall
  let s := { s with log := { s.log with
    wall := v, wallHost := v ≠ 0, wallSet := true, stepped := s.log.stepped || decide (v < old) } }
  (rOk [], if v < old then logX 0x0602 1 0 n old v 0 s else s)

/-- Entries of LOG_RATE_SET: index and value. -/
def rateEntries (p : List Byte) : List (Nat × Nat) := (List.range (u8 p 2)).map fun i => (u16 p 0 + i, u16 p (4 + 2 * i))

/-- One LOG_RATE entry takes a value; a changed code's bucket is full again (R383). -/
def setRate (i v : Nat) (s : State) : State :=
  let die := yardDie
  let r := R.logRate + i / 2
  let hi := 16 * (i % 2) + 15
  let lo := 16 * (i % 2)
  if regf s die r hi lo = v then s
  else
    let code := 256 * (i / 32) + i % 32
    setBucket code { Table.get Bucket.init s.log.buckets code with used := 0, fillAt := s.now } (setRegf die r hi lo v s)

/-- LOG_RATE_SET (R383). -/
def rateBody (e : Entry) (s : State) : Rep × State :=
  let l := rateEntries e.payload
  if u16 e.payload 0 + u8 e.payload 2 > 384 then (rErr 4, s)
  else if l.any fun x => badRate x.1 (x.2 / 256) then (rErr 0x0B, s)
  else (rOk [], forAll l (fun x s => setRate x.1 x.2 s) s)

/-- TACK_FETCH (R403). -/
def tackBody (n : Nat) (e : Entry) (s : State) : Rep × State :=
  let pg := u8 e.payload 0
  let i := u16 e.payload 2
  if i > 1008 then (rErr 4, s)
  else if !holdsBulk s n pg then (rErr 6, s)
  else
    let xs := Table.range Snapshot.void s.log.tack i 16
    let void := (List.range 16).filter fun j => (xs.getD j Snapshot.void).logSeq == 0
    (rOk (maskBytes 2 void ++ zeros 2), fillHeld n pg 0 (xs.flatMap snapBytes) s)

/-- LAMP_RESET (R406, R407). -/
def lampResetBody (n : Nat) (e : Entry) (s : State) : Rep × State :=
  let f := u8 e.payload 0
  let x := getFn s f
  if !nvOpen s then (rErrD 0x0E 4, s)
  else
    let s := updFn f (fun x => { x with lampS := 0, onN := 0 }) s
    (rOk (le 4 x.lampS ++ le 4 x.onN), accountWrite (logX 0x0604 1 0 n f x.lampS 0 s))

/-! Timers. -/

/-- LOG_FLUSH_PERIODIC (R386, R392): 60 operating seconds after the previous flush. -/
def periodicFlush (s : State) : State :=
  if !s.power.fw || s.store.flushDue || s.log.opS < s.log.flushAt + 60 then s else flushNow (releaseSuppressed s)

/-- LOG_FLUSH_URGENT (R392): a FAULT or CRITICAL record has been staged. -/
def urgentFlush (s : State) : State :=
  if !s.power.fw || s.log.urgentAt.isNone || s.store.flushDue then s else flushNow s

/-- TACK_SNAPSHOT_WRITE (R402). -/
def writeSnapshots (s : State) : State :=
  if !s.power.fw || s.log.tackPend.isEmpty then s
  else if writesWait s then { s with store := { s.store with tackDue := true } }
  else commitSnapshots s

/-- ACCOUNTING_SAVE (R407): every 600 operating seconds. -/
def periodicSave (s : State) : State :=
  if !s.power.fw || s.store.saveDue || s.log.opS < s.log.saveAt + 600 then s else accountWrite s

/-- Body of page 0x06 from offset 4 (Table 14.10). -/
def lampPage (s : State) : List Byte :=
  le 4 s.log.opS ++ le 4 s.log.cycles ++ le 4 s.log.savedOpS ++ (List.range 4).flatMap (fun v => le 4 (Table.get 0 s.log.drops v))
  ++ zeros 992 ++ (List.range 256).flatMap (fun f => le 4 (getFn s f).lampS)
  ++ (List.range 256).flatMap (fun f => le 4 (getFn s f).onN)

/-- OPERATING_SECOND (R399, R404, R408). -/
def secondPasses (s : State) : State :=
  if s.power.phase ≠ .done || s.power.mode = .nightWatch then s
  else
    let s := { s with log := { s.log with
      opS := (s.log.opS + 1) % 2 ^ 32, wall := if s.log.wallHost then (s.log.wall + 1) % 2 ^ 32 else s.log.wall } }
    if s.power.fw then devWrite 6 (lampPage s) s else s

end Sys2Proof.Machine
end

