-- ==== Sys2Proof/Machine/Ops.lean ====
section
/-! DEFINITION. The frame of every command: it happens at its instant, on a die that exists, changes what its meaning changes,
and what follows every change follows: the entry to Run, the times of waiting, and FAIL_N. -/

namespace Sys2Proof.Machine

open Sys2Proof

/-- What no meaning changes: the queue of waiting commands, the family member, and the clock, which stands at the command's
instant or, where that lies in the past, where it stood (log entry 1). -/
def holdFixed (s s' : State) : State := { s' with pending := s.pending, variant := s.variant, now := s.now }

/-- Entry to Run (02, Table 2.5; 11, R332): NW_CFG is loaded from the store, and the message map requests its functions. -/
def enterRun (s : State) : State :=
  let s := setReg yardDie R.nwCfg (rget (selectStores s).1 yardDie R.nwCfg) s
  if s.power.fw then mapTake s else s

/-- The mode has become Run in a command that began in `s0`. -/
def noteRun (s0 s : State) : State :=
  if s.power.mode = .run ∧ s0.power.mode ≠ .run then enterRun s else s

/-- Since when something other than a commit waits for a round (05, R155). -/
def noteHeld (s : State) : State :=
  let x := s.scene
  if x.heldLapses.isEmpty && x.heldValues.isEmpty && !x.safeWanted && !x.restoreDue then
    { s with scene := { x with heldSince := none } }
  else { s with scene := { x with heldSince := some (x.heldSince.getD s.now) } }

/-- WAKE pins that NW_CFG enables and that are active (02, R63). -/
def wakeHeld (s : State) : Bool := s.power.wakeActive.toNat &&& yf s R.nwCfg 11 8 ≠ 0

/-- Since when both idle conditions of 02 R63 hold. -/
def noteIdle (s : State) : State :=
  let idle := s.power.ready && (openSessions s).all (· == 0) && !wakeHeld s
  { s with power := { s.power with idleSince := if idle then some (s.power.idleSince.getD s.now) else none } }

/-- The state after a meaning `f` at instant `t`. -/
def after (t : Nat) (f : State → State) (s : State) : State :=
  let s0 := atTime t s
  settle (noteIdle (noteHeld (holdFixed s0 (noteRun s0 (f s0)))))

/-- A command of the package at instant `t`. -/
def act (t : Nat) (f : State → State) (s : State) : Host.Outcome State Fault Refusal := .next (after t f s)

/-- A command of shed `k` or its link: a die that the variant does not contain is a fault (00, Table 0.1; 01, R44). -/
def actOn (k t : Nat) (f : State → State) (s : State) : Host.Outcome State Fault Refusal :=
  if isPresent s k then act t f s else .fault (.absentShed k)

/-- A command of a die: 0 is the yard, `k + 1` shed `k` (00, R5). -/
def actDie (die t : Nat) (f : State → State) (s : State) : Host.Outcome State Fault Refusal :=
  if die = 0 then act t f s else actOn (die - 1) t f s

end Sys2Proof.Machine
end

