-- ==== Sys2Proof/Machine/BookCmds.lean ====
section
/-! DEFINITION. The commands and timers of the Logbook, the Tack Room, the accounting and the item writes (14; 16, R435). -/

namespace Sys2Proof.Machine

open Sys2Proof

/-- LOG_CURSOR (14, R396). -/
def execLogCursor (t : Nat) (n : Fin 16) (s : State) : Host.Outcome State Fault Refusal :=
  act t (runJhp n.val 0x0601 (fixed 8) (zeroAt 1 3) 0 (cursorBody n.val)) s

/-- LOG_FETCH (14, R397). -/
def execLogFetch (t : Nat) (n : Fin 16) (s : State) : Host.Outcome State Fault Refusal :=
  act t (runJhp n.val 0x0602 (fixed 4) (zeroAt 3 1) 0 (fetchBody n.val)) s

/-- LOG_FLUSH (14, R392). -/
def execLogFlush (t : Nat) (n : Fin 16) (s : State) : Host.Outcome State Fault Refusal :=
  act t (runJhp n.val 0x0603 (fixed 0) noRsvd 1 (flushBody n.val)) s

/-- LOG_CLEAR (14, R398). -/
def execLogClear (t : Nat) (n : Fin 16) (s : State) : Host.Outcome State Fault Refusal :=
  act t (runJhp n.val 0x0604 (fixed 0) noRsvd 2 (fun _ => logClearBody n.val)) s

/-- LOG_SET_WALL (14, R399). -/
def execLogSetWall (t : Nat) (n : Fin 16) (s : State) : Host.Outcome State Fault Refusal :=
  act t (runJhp n.val 0x0605 (fixed 4) noRsvd 1 (wallBody n.val)) s

/-- LOG_RATE_SET (14, R383). -/
def execLogRateSet (t : Nat) (n : Fin 16) (s : State) : Host.Outcome State Fault Refusal :=
  act t (runJhp n.val 0x0606 (fun p => 4 + 2 * u8 p 2) (zeroAt 3 1) 2 rateBody) s

/-- TACK_FETCH (14, R403). -/
def execTackFetch (t : Nat) (n : Fin 16) (s : State) : Host.Outcome State Fault Refusal :=
  act t (runJhp n.val 0x0610 (fixed 4) (zeroAt 1 1) 0 (tackBody n.val)) s

/-- LAMP_RESET (14, R406). -/
def execLampReset (t : Nat) (n : Fin 16) (s : State) : Host.Outcome State Fault Refusal :=
  act t (runJhp n.val 0x0620 (fixed 4) (zeroAt 1 3) 2 (lampResetBody n.val)) s

/-- LOG_FLUSH_PERIODIC (14, R386, R392). -/
def execLogFlushPeriodic (t : Nat) (s : State) : Host.Outcome State Fault Refusal := act t periodicFlush s

/-- LOG_FLUSH_URGENT (14, R392). -/
def execLogFlushUrgent (t : Nat) (s : State) : Host.Outcome State Fault Refusal := act t urgentFlush s

/-- TACK_SNAPSHOT_WRITE (14, R402). -/
def execTackSnapshotWrite (t : Nat) (s : State) : Host.Outcome State Fault Refusal := act t writeSnapshots s

/-- ACCOUNTING_SAVE (14, R407). -/
def execAccountingSave (t : Nat) (s : State) : Host.Outcome State Fault Refusal := act t periodicSave s

/-- OPERATING_SECOND (14, R404). -/
def execOperatingSecond (t : Nat) (s : State) : Host.Outcome State Fault Refusal := act t secondPasses s

/-- NV_ITEM_WRITE (16, R435, R437). -/
def execNvItemWrite (t : Nat) (verifyOk : Bool) (s : State) : Host.Outcome State Fault Refusal := act t (nvTurn verifyOk) s

end Sys2Proof.Machine
end

