-- ==== Sys2Proof/Machine/HostOps.lean ====
section
/-! DEFINITION. The session, page and function commands (10, R276 to R298; 17, Tables 17.1 and 17.2). -/

namespace Sys2Proof.Machine

open Sys2Proof

/-- Transport code of a session (Table 10.1). -/
def transportOf (s : State) (n : Nat) : Nat := Source.transport (getSess s n).src

/-! Opening. -/

/-- Reserved bits of an event mask, with `i` its offset (10, Table 10.4). -/
def eventsOk (i : Nat) (p : List Byte) : Bool := u16 p i < 64

/-- The lowest free session number from 1 (R277). -/
def freeSession (s : State) : Option Nat := ((List.range 16).drop 1).find? fun n => !(getSess s n).isOpen

/-- LEASE is outside its range; 0 takes the default (17, Table 17.1; R278). -/
def leaseBad (l : Nat) : Bool := (1 ≤ l && l ≤ 9) || l > 6000

/-- The source holds a session. -/
def sourceSession (s : State) (src : Source) : Option Nat :=
  (openSessions s).find? fun n => decide ((getSess s n).src = src)

/-- The own checks of SESSION_OPEN, in the order of Table 17.1. -/
def openRefusal (s : State) (e : Entry) : Option Nat :=
  if leaseBad (u16 e.payload 0) then some 4 else if (freeSession s).isNone then some 0x0A else none

/-- Reply payload of SESSION_OPEN. -/
def openPayload (n : Nat) (x : Session) : List Byte :=
  le 1 n ++ le 1 x.priv.rank ++ le 1 (Source.transport x.src) ++ zeros 1 ++ le 4 (x.lease * 10)

/-- A session opens (R277, R278; 14, R396 for its cursor). -/
def openSession (n : Nat) (src : Source) (seq : Nat) (e : Entry) (s : State) : State :=
  let l := u16 e.payload 0
  let x : Session :=
    { Session.init with isOpen := true, src := src, lease := l, leaseDefault := l == 0,
                        last := s.now, priv := openPriv s (Source.transport src), events := BitVec.ofNat 16 (u16 e.payload 2),
                        cursor := oldestVisible s, openSeq := seq, openTag := e.tag }
  let x := takeCfg s x
  let x := { x with openReply := openPayload n x }
  let s := setSess n x (setMbx n { getMbx s n with queue := [], bell := false, replies := [], events := [], lost := 0, evSeq := 0 } s)
  logX 0x0101 0 0 n (Source.transport src) x.priv.rank 0 s

/-- SESSION_OPEN over SPIT: only MBX_0 opens (R277). -/
def openBody (n : Nat) (e : Entry) (s : State) : Rep × State :=
  if n ≠ 0 then (rErr 0x0D, s)
  else
    match openRefusal s e, freeSession s with
    | none, some m => let s := openSession m .spit 0 e s; (rOk (getSess s m).openReply, s)
    | some c, _ => (rErr c, s)
    | none, none => (rErr 0x0A, s)

/-- Mailbox whose oldest waiting command is the SESSION_OPEN that this command of the block runs. -/
def openMbx (s : State) : Nat :=
  ((List.range 16).find? fun n =>
    boundSpit s n && decide ((headEntry s n).map (·.opcode) = some 0x0101)).getD 0

/-- The reply of a source without a mailbox, sent once with MBX 0xFF (11, R323, R329). -/
def sendOnce (src : Source) (e : Entry) (code : Nat) (s : State) : State :=
  sendTo src 0xFF (le 2 e.opcode ++ le 2 e.tag ++ le 2 0 ++ le 2 (code * 256)) s

/-- The original reply of SESSION_OPEN, staged in the session's reply slot (R277); one that was POSTED has none (R286). -/
def stageOpenReply (n : Nat) (s : State) : State :=
  let x := getSess s n
  if x.openReply.isEmpty then s else
  let it : Item := { entry := 0, opcode := 0x0101, tag := x.openTag, code := 0, detail := 0, payload := x.openReply,
                     staged := false, sentAt := 0 }
  restage n (setMbx n { getMbx s n with replies := (getMbx s n).replies ++ [it] } s)

/-- A SESSION_OPEN of a source without a session, in its turn (R277; 11, R323, R329): a refusal is sent once and counts
against no session. One that waits in the mailbox of the source's own session is answered there. -/
def runOpen (src : Source) (s : State) : State :=
  match s.net.opens.find? fun r => decide (r.src = src) with
  | none =>
    match sourceSession s src with
    | some n => runJhp n 0x0101 (fixed 4) (eventsOk 2) 0 (fun _ s => (rErr 0x0D, s)) s
    | none => s
  | some r =>
    if !s.power.ready then s
    else
      let s := { s with net := { s.net with opens := s.net.opens.erase r } }
      match generalCheck s 0 r.entry 4 (eventsOk 2) 0 with
      | some c => sendOnce src r.entry c s
      | none =>
        if (sourceSession s src).isSome then sendOnce src r.entry 0x0D s
        else
          match openRefusal s r.entry, freeSession s with
          | none, some m =>
            let s := openSession m src r.seq r.entry s
            if r.entry.flags % 2 = 1 then updSess m (fun x => { x with openReply := [] }) s else stageOpenReply m s
          | some c, _ => sendOnce src r.entry c s
          | none, none => sendOnce src r.entry 0x0A s

/-- SESSION_OPEN of a source (R277). -/
def sessionOpen (src : Source) (s : State) : State :=
  match src with
  | .spit => runJhp (openMbx s) 0x0101 (fixed 4) (eventsOk 2) 0 (openBody (openMbx s)) s
  | _ => if opensHeld s then s else runOpen src s

/-! The other session commands. -/

/-- SESSION_CLOSE (R279, R280). -/
def closeBody (n : Nat) (_ : Entry) (s : State) : Rep × State := (.later, closeSession n 0 0 s)

/-- SESSION_KEEPALIVE (R278): its receipt has restarted the lease. -/
def keepaliveBody (n : Nat) (_ : Entry) (s : State) : Rep × State := (rOk (le 4 (leaseLeft s n)), s)

/-- Key of a level, and whether it is provisioned (16, Table 16.9). -/
def levelKey (s : State) (lv : Nat) : List Byte := if lv = 1 then opKey s else ownKey s
def levelKeySet (s : State) (lv : Nat) : Bool := (keyFlags s).testBit (lv - 1)

/-- Auth-failed replies of a level, newest first. -/
def failsOf (s : State) (lv : Nat) : List Nat := Table.get [] s.authFails lv

/-- Four of them lie within 60 s, and the fourth is less than 60 s old (R285). -/
def lockedBy (now : Nat) : List Nat → Bool
  | a :: b :: c :: d :: r => (a ≤ d + 60 * sec && now < a + 60 * sec) || lockedBy now (b :: c :: d :: r)
  | _ => false

def authLocked (s : State) (lv : Nat) : Bool := lockedBy s.now (failsOf s lv)

/-- An auth-failed reply counts for its level and is recorded (R285). Instants that can no longer matter are dropped. -/
def noteAuthFail (n lv : Nat) (s : State) : State :=
  let l := (s.now :: failsOf s lv).filter fun t => s.now < t + 120 * sec
  logX 0x0103 1 0 n lv (transportOf s n) 0 { s with authFails := Table.put [] s.authFails lv l }

/-- 32 bytes of the random generator (log entry 13). -/
def randomBytes (s : State) : List Byte × State :=
  let d := draw s
  ((List.range 32).map fun i => Config.random d.1 i, d.2)

/-- SESSION_CHALLENGE (R283, R285; 15, Table 15.2). -/
def challengeBody (n : Nat) (e : Entry) (s : State) : Rep × State :=
  let lv := u8 e.payload 0
  if lv ≠ 1 && lv ≠ 2 then (rErr 4, s)
  else if !levelKeySet s lv || !cryptoUp s then (rErr 0x0D, s)
  else if authLocked s lv then (rErrD 0x0C 5, s)
  else
    let r := randomBytes s
    let v : Nonce := { bytes := r.1, level := lv, at_ := s.now, key := levelKey s lv }
    (rOk (r.1 ++ uidBytes s), updSess n (fun x => { x with nonce := some v }) r.2)

/-- Message M (Table 10.2). -/
def authMessage (s : State) (n lv : Nat) (nonce : List Byte) : List Byte :=
  nonce ++ uidBytes s ++ le 1 n ++ le 1 lv ++ le 1 (transportOf s n)

/-- A nonce of level `lv`, not older than 1 s (R283). -/
def liveNonce (s : State) (v : Option Nonce) (lv : Nat) : Option Nonce :=
  v.filter fun v => v.level == lv && s.now ≤ v.at_ + sec

/-- Another session holds OWNER (R282). -/
def ownerElsewhere (s : State) (n : Nat) : Bool :=
  (openSessions s).any fun m => m ≠ n && decide ((getSess s m).priv = .owner)

/-- SESSION_AUTH (R284, R285; 15, R418). -/
def authBody (n : Nat) (e : Entry) (s : State) : Rep × State :=
  let lv := u8 e.payload 0
  let v := liveNonce s (getSess s n).nonce lv
  if !cryptoUp s || (v.map (·.bytes.isEmpty)).getD false then (rErr 0x0D, s)
  else
    let s := updSess n (fun x => { x with nonce := none }) s
    match v.filter fun v => hmac v.key (authMessage s n lv v.bytes) == slice e.payload 4 32 with
    | none => (rErr 9, noteAuthFail n lv s)
    | some _ =>
      if lv = 2 && ownerElsewhere s n then (rErrD 0x0C 4, s)
      else
        let s := updSess n (fun x => { x with priv := privOf lv }) s
        (rOk (le 1 lv ++ zeros 3), logX 0x0104 0 0 n lv (transportOf s n) 0 s)

/-- SESSION_DROP (R282). -/
def dropBody (n : Nat) (e : Entry) (s : State) : Rep × State :=
  let lv := u8 e.payload 0
  if lv ≥ (getSess s n).priv.rank then (rErr 0x0D, s)
  else (rOk (le 1 lv ++ zeros 3), updSess n (fun x => { x with priv := privOf lv }) s)

/-- SESSION_EVENTS (R290). -/
def eventsBody (n : Nat) (e : Entry) (s : State) : Rep × State :=
  (rOk [], updSess n (fun x => { x with events := BitVec.ofNat 16 (u16 e.payload 0) }) s)

/-- Pages held HOST by a session. -/
def hostPages (s : State) (n : Nat) : List Nat :=
  (s.win.own.filter fun p => p.2.owner == .host && p.2.session == n).map (·.1)

/-- SESSION_INFO (17, Table 17.1). -/
def infoBody (n : Nat) (_ : Entry) (s : State) : Rep × State :=
  let x := getSess s n
  (rOk (le 1 n ++ le 1 x.priv.rank ++ le 1 (Source.transport x.src) ++ zeros 1 ++ le 4 (leaseLeft s n) ++ le 2 (violCount s n)
        ++ le 2 (drivenBy s n).length ++ le 2 (hostPages s n).length ++ zeros 2), s)

/-- Lease expiry (R278, R279). -/
def leaseExpired (n : Nat) (s : State) : State :=
  let x := getSess s n
  if s.power.ready && x.isOpen && x.last + leaseNs x ≤ s.now then closeSession n 1 0 s else s

/-- An entry has freed while a doorbell was pending (R286). -/
def pendingCopy (n : Nat) (s : State) : State :=
  let m := getMbx s n
  if s.power.ready && (getSess s n).isOpen && m.bell && m.queue.length < 4 then answerUnknown 64 (copySlot n s) else s

/-- A doorbell by itself (R286). -/
def doorbell (n : Nat) (s : State) : State := if s.power.ready then ringDoorbell n s else s

/-- The staged item of a mailbox is acknowledged (R289, R305). -/
def ackStaged (n : Nat) (s : State) : State :=
  if s.power.ready && (getSess s n).isOpen && (stagedItem (getMbx s n)).isSome then acknowledge n s else s

/-! Pages. -/

/-- The pages that PAGE and COUNT name. -/
def pagesNamed (e : Entry) : List Nat := (List.range (u8 e.payload 1)).map (u8 e.payload 0 + ·)

/-- PAGE and COUNT out of range (17, Table 17.1). -/
def pagesBad (e : Entry) : Bool :=
  u8 e.payload 1 = 0 || u8 e.payload 1 > 16 || u8 e.payload 0 + u8 e.payload 1 > 256

/-- GEN of each page. -/
def gensOf (s : State) (ps : List Nat) : List Byte := ps.flatMap fun p => le 2 (getOwn s p).gen.toNat

/-- A hostable FREE page. -/
def freePage (s : State) (p : Nat) : Bool := hostable p && (getOwn s p).owner == .free

/-- PAGE_TAKE: every page or none; a page the session already holds stays as it is (R297). -/
def takeBody (n : Nat) (e : Entry) (s : State) : Rep × State :=
  let ps := pagesNamed e
  if pagesBad e then (rErr 4, s)
  else if !ps.all (fun p => freePage s p || holds s n p) then (rErr 6, s)
  else
    let s := forAll (ps.filter (freePage s)) (fun p s => changeOwner p .host n s) s
    (rOk (gensOf s ps), s)

/-- PAGE_RELEASE (Table 10.9). -/
def releaseBody (n : Nat) (e : Entry) (s : State) : Rep × State :=
  let ps := pagesNamed e
  if pagesBad e then (rErr 4, s)
  else if !ps.all (holds s n) then (rErr 6, s)
  else
    let s := forAll ps (fun p s => changeOwner p .free 0 s) s
    (rOk (gensOf s ps), s)

/-- PAGE_LOCK (Table 10.9). -/
def lockBody (n : Nat) (e : Entry) (s : State) : Rep × State :=
  let p := u8 e.payload 0
  if freePage s p || holds s n p then
    let s := changeOwner p .locked n s
    (rOk (gensOf s [p] ++ zeros 2), s)
  else (rErr 6, s)

/-- PAGE_UNLOCK (Table 10.9). -/
def unlockBody (e : Entry) (s : State) : Rep × State :=
  let p := u8 e.payload 0
  if (getOwn s p).owner = .locked then
    let s := changeOwner p .free 0 s
    (rOk (gensOf s [p] ++ zeros 2), s)
  else (rErr 0x0D, s)

/-! Functions. -/

/-- A function is granted to a request of session `n` with priority `prio` (R292; 11, R332). -/
def grants (s : State) (n prio f : Nat) : Bool :=
  fnDefined (fnMap s) f && fnDriveLv (fnMap s) f ≤ (getSess s n).priv.rank &&
  match (getFn s f).holder with
  | .none => true
  | .session m => m == n || (getFn s f).prio < prio
  | .map => (getFn s f).prio < prio

/-- Function `f` passes to session `n`: its former holder is told, and a message-map value that waits goes (R292). -/
def grantFn (n prio f : Nat) (s : State) : State :=
  let old := (getFn s f).holder
  let s := holdFn f (.session n) prio s
  let s := { s with scene := { s.scene with heldValues := Table.drop s.scene.heldValues f } }
  match old with
  | .session m => if m = n then s else fnLost m f n s
  | _ => s

/-- FN_ACQUIRE (R292). -/
def acquireBody (n : Nat) (e : Entry) (s : State) : Rep × State :=
  let prio := u8 e.payload 32
  let l := (maskList e.payload 0 256).filter (grants s n prio)
  (rOk (maskBytes 32 l), forAll l (grantFn n prio) s)

/-- FN_RELEASE (R293). -/
def fnReleaseBody (n : Nat) (e : Entry) (s : State) : Rep × State :=
  let l := (maskList e.payload 0 256).filter fun f => decide ((getFn s f).holder = .session n)
  (rOk (maskBytes 32 l), forAll l releaseFn s)

end Sys2Proof.Machine
end

