-- ==== Sys2Proof/Machine/SpitOps.lean ====
section
/-! DEFINITION. The SPI target port and the front register file (10, R300 to R309; 17, R460). -/

namespace Sys2Proof.Machine

open Sys2Proof

/-! Front registers (Table 10.13, Table 17.12). -/

def winPage (s : State) : Nat := s.front.winAddr.fld 31 24
def winWord (s : State) : Nat := s.front.winAddr.fld 23 14
def winSess (s : State) : Nat := s.front.winAddr.fld 13 10

/-- WORD moves on after a WIN_DATA access, within the page (R307). -/
def winNext (s : State) : State :=
  { s with front := { s.front with winAddr := s.front.winAddr.withFld 23 14 (winWord s + 1) } }

/-- A window write that was refused with the ownership error is a violation (R291; 14, Table 14.3). -/
def windowRefused (n p : Nat) (r : Nat × State) : State := if r.1 = 6 then violation n 6 (0x10000 + p) r.2 else r.2

/-- A whole write to WIN_DATA (R307). -/
def winDataWrite (w : Word) (s : State) : State :=
  let n := winSess s
  let p := winPage s
  let bs := le 4 w.toNat
  let s' := if boundSpit s n then windowRefused n p (windowWrite n p (4 * winWord s) bs false false 0 s)
            else violation 0 6 (0x10000 + p) s
  winNext s'

/-- The window word at WIN_ADDR; of a page that the device is writing, as it stood before (R307). -/
def winDataWord (s : State) : Nat := ofLe (readBefore s (winPage s) (4 * winWord s) 4)

/-- A whole read of WIN_DATA (R307). -/
def winDataRead (s : State) : State :=
  winNext { s with front := { s.front with winData := BitVec.ofNat 32 (winDataWord s) } }

/-- Mask of the mailboxes that meet a test. -/
def mbxMask (p : Nat → Bool) : Nat := sumN (((List.range 16).filter p).map (2 ^ ·))

/-- The value of front register `i`, at offset 4 × `i` (Table 10.13). -/
def frontReg (s : State) (i : Nat) : Nat :=
  match i with
  | 0 => idReg s
  | 1 => statusReg s
  | 2 => irqNow s
  | 3 => s.front.irqEn.toNat
  | 4 => mbxMask (fun n => (getMbx s n).bell) * 65536
  | 5 => mbxMask fun n => (getSess s n).isOpen && (stagedItem (getMbx s n)).isSome
  | 6 => s.front.winAddr.toNat
  | 7 => winDataWord s
  | 8 => s.log.opS
  | 9 => faultSum s
  | 10 => s.marks.count.toNat
  | 11 => (reg s yardDie R.spitErr).toNat
  | 12 => s.log.cycles
  | 13 => s.front.scratch.toNat
  | _ => 0

/-- Bit `n` of a register value names a mailbox bound to SPIT (R276). -/
def namedMbx (s : State) (w : Word) : List Nat := (List.range 16).filter fun n => w.bit n && boundSpit s n

/-- A write of a whole front register under its access code (00, R12; Table 10.13). Reserved bits are ignored (00, R15). -/
def writeFront (i : Nat) (w : Word) (s : State) : State :=
  match i with
  | 2 => { s with front := { s.front with irqFlags := s.front.irqFlags &&& ~~~(w &&& 0x1FE) } }
  | 3 => { s with front := { s.front with irqEn := w &&& 0x1FF } }
  | 4 => forAll (namedMbx s w) ringDoorbell s
  | 5 => forAll (namedMbx s w) ackStaged s
  | 6 => { s with front := { s.front with winAddr := w &&& 0xFFFFFC00 } }
  | 7 => winDataWrite w s
  | 13 => { s with front := { s.front with scratch := w } }
  | _ => s

/-- A register write reaches the front file while service is open (R301). -/
def frontWrite (i : Nat) (w : Word) (s : State) : State := if s.power.ready then writeFront i w s else s

/-- A register read is served by hardware whenever the yard is out of reset (10). -/
def frontDataRead (s : State) : State := if s.power.phase = .held then s else winDataRead s

/-- Registers of access RS (Table 10.13). -/
def frontRs : List Nat := [0, 1, 8, 9, 10, 12]

/-- The snapshots after a read of `n` bytes from offset `o`: each register of access RS whose first byte is read is latched (R306). -/
def latchFront (o n : Nat) (s : State) : State :=
  let l := frontRs.filter fun i => o ≤ 4 * i && 4 * i < o + n
  { s with front := { s.front with snaps := l.foldl (fun t i => Table.put 0 t i (BitVec.ofNat 32 (frontReg s i))) s.front.snaps } }

/-- A register of access RS reads as its snapshot, any other as it stands (00, Table 0.4; log entry 207). -/
def frontRead (s : State) (i : Nat) : Nat := if frontRs.contains i then (Table.get 0 s.front.snaps i).toNat else frontReg s i

/-- The 64 bytes of the front file that a read returns. -/
def frontBytes (s : State) : List Byte := (List.range 16).flatMap fun i => le 4 (frontRead s i)

/-! Transactions (Table 10.11). -/

/-- Command byte and fixed bytes of a type. -/
def spitHead (typ : Nat) : Nat := [1, 3, 3, 3, 3, 8, 6, 1].getD typ 1

def spitRead (typ : Nat) : Bool := typ = 1 || typ = 4 || typ = 6
def spitWrite (typ : Nat) : Bool := typ = 2 || typ = 3 || typ = 5
def spitWindow (typ : Nat) : Bool := typ = 5 || typ = 6

/-- OFFSET as sent, and COUNT. -/
def spitOffset (typ : Nat) (m : List Byte) : Nat := if spitWindow typ then u16 m 2 else u8 m 1
def spitCount (typ : Nat) (m : List Byte) : Nat := if typ = 0 || typ = 7 then 0 else if spitWindow typ then u16 m 4 else u8 m 2

/-- Byte offset within the page, slot or file. -/
def spitByte (typ : Nat) (m : List Byte) : Nat := if spitWindow typ then spitOffset typ m % 4096 else spitOffset typ m

/-- Declared length (R301). -/
def spitDeclared (typ : Nat) (m : List Byte) : Nat := spitHead typ + spitCount typ m + bit01 (spitRead typ)

/-- Reserved bits of the command byte (Table 10.11). -/
def spitReserved (typ cmd : Nat) : Bool :=
  if typ = 3 || typ = 4 then false else if typ = 5 then cmd / 4 % 8 ≠ 0 else cmd % 32 ≠ 0

/-- The refusals of R301 that the bytes which arrived whole decide. `m` holds the command byte at least. -/
def spitRefused (s : State) (typ : Nat) (m : List Byte) : Bool :=
  let cmd := u8 m 0
  let o := spitOffset typ m
  let c := spitCount typ m
  typ = 7 || spitReserved typ cmd
  || (!s.power.ready && typ ≠ 0 && typ ≠ 1)
  || (typ = 3 && (!boundSpit s (cmd % 16) || (getMbx s (cmd % 16)).bell))
  || (typ = 5 && s.front.winBusy)
  || (spitWindow typ && m.length ≥ 4 && (if typ = 5 then !boundSpit s (o / 4096) else o / 4096 ≠ 0))
  || (typ ≠ 0 && m.length ≥ spitHead typ && (c = 0 || (if spitWindow typ then o % 4096 + c > 4096 else o + c > 64)))

/-- Session that a violating transaction names (R291). -/
def spitNamed (typ : Nat) (m : List Byte) : Nat :=
  if typ = 3 || typ = 4 then u8 m 0 % 16 else if typ = 5 && m.length ≥ 4 then u16 m 2 / 4096 else 0

/-- Count in a field of SPIT_ERR (Table 10.18), saturating. -/
def countFrame (s : State) : State := addReg yardDie R.spitErr 31 24 1 s
def countOver (k : Nat) (s : State) : State := addReg yardDie R.spitErr 23 16 k s
def countShort (s : State) : State := addReg yardDie R.spitErr 15 8 1 s
def countRefused (s : State) : State := addReg yardDie R.spitErr 7 0 1 s

/-- The end of a transaction: FRAME_ERR describes it to the next, and one that sets it is a violation (R291, R303). A
violation counts against a session bound to SPIT only, and while the firmware runs (R276). -/
def spitFinish (err : Bool) (n p2 : Nat) (s : State) : State :=
  let s := { s with front := { s.front with frameErr := err } }
  if !err then s
  else
    let s := setIrq 8 s
    if s.power.fw && boundSpit s n then violation n 0 p2 s else s

def setMiso (l : List Byte) (s : State) : State := { s with front := { s.front with miso := l } }

/-- What a read fetches: the fetch status byte and the data (R304). -/
def spitFetch (s : State) (typ : Nat) (m : List Byte) : Byte × List Byte :=
  let o := spitByte typ m
  let c := spitCount typ m
  if typ = 1 then (0x81, slice (frontBytes s) o c)
  else if typ = 4 then
    let x := getMbx s (u8 m 0 % 16)
    if boundSpit s (u8 m 0 % 16) && (stagedItem x).isSome then (0x81, slice (replySlot x) o c) else (0x21, [])
  else
    let p := u8 m 1
    if (devPage p && pageGen s p % 2 = 1) || s.front.winBusy then (0x41, []) else (0x81, readPage s p o c)

/-- What a whole transaction does (R302, R305, R307). -/
def spitAct (typ : Nat) (m : List Byte) (s : State) : State :=
  let cmd := u8 m 0
  let o := spitByte typ m
  let c := spitCount typ m
  let data := slice m (spitHead typ) c
  let n := cmd % 16
  match typ with
  | 1 => if o ≤ 28 && 32 ≤ o + c then winDataRead s else s
  | 2 => forAll ((List.range 16).filter fun i => o ≤ 4 * i && 4 * i + 4 ≤ o + c)
           (fun i s => writeFront i (BitVec.ofNat 32 (u32 data (4 * i - o))) s) s
  | 3 =>
    let s := updMbx n (fun x => { x with slot := Table.putAll 0 x.slot o data }) s
    if cmd / 16 % 2 = 1 then ringDoorbell n s else s
  | 4 =>
    match stagedItem (getMbx s n) with
    | some x => if cmd / 16 % 2 = 1 && boundSpit s n && o = 0 && c ≥ 8 + x.payload.length then acknowledge n s else s
    | none => s
  | 5 =>
    let k := spitOffset 5 m / 4096
    windowRefused k (u8 m 1) (windowWrite k (u8 m 1) o data (cmd % 2 == 1) (cmd / 2 % 2 == 1) (u16 m 6) s)
  | _ => s

/-- A transaction that is not refused: `part` bits follow its whole bytes. -/
def spitServe (st : Byte) (typ : Nat) (m : List Byte) (part : Nat) (s : State) : State :=
  let bytes := m.length + (if part = 0 then 0 else 1)
  let p2 := 0x20000 + u8 m 0
  if typ = 0 then spitFinish false 0 p2 (setMiso (List.replicate bytes st) s)
  else
    let headed := m.length ≥ spitHead typ
    let decl := spitDeclared typ m
    let short := !headed || m.length < decl
    let s := if short && part ≠ 0 then countFrame s else s
    let s := if short && spitWrite typ then countShort s else s
    let s := if !short then countOver (bytes - decl) s else s
    -- COUNT bytes of data, as far as the host clocks them
    let s := if typ = 1 && headed then latchFront (spitByte 1 m) (min (spitCount 1 m) (bytes - 4)) s else s
    let out :=
      if headed && spitRead typ then
        let f := spitFetch s typ m
        zeros (spitHead typ - 1) ++ f.1 :: (if f.1 = 0x81 then f.2 else [])
      else []
    let s := setMiso (padTo bytes (st :: out)) s
    let n := spitNamed typ m
    let s := if short then s else spitAct typ m s
    spitFinish short n p2 s

/-- A SPIT transaction of type `typ`: its whole bytes from the host, and the bits of a further partial byte (R303). Nothing
happens while the yard is held in reset, or where the command byte is of another type. -/
def spitRun (typ : Nat) (m : List Byte) (part : Nat) (s : State) : State :=
  match m with
  | [] => s
  | cmd :: _ =>
    if cmd.toNat / 32 ≠ typ || s.power.phase = .held then s
    else
      let st := statusByte s
      let s := renewSpit s
      if spitRefused s typ m then
        let bytes := m.length + (if part = 0 then 0 else 1)
        spitFinish true (spitNamed typ m) (0x20000 + cmd.toNat) (countRefused (setMiso (padTo bytes [st]) s))
      else spitServe st typ m part s

/-- SPIT_CS_N rises within the command byte (R303; 14, Table 14.3). Without a clock edge nothing happens. -/
def spitPartial (bits : Nat) (s : State) : State :=
  if bits = 0 || s.power.phase = .held then s
  else spitFinish true 0 0x20100 (countFrame (setMiso [statusByte s] s))

end Sys2Proof.Machine
end

