-- ==== Sys2Proof/Machine/HostCmds.lean ====
section
/-! DEFINITION. The commands of the sessions, the window and the SPI target port (10). -/

namespace Sys2Proof.Machine

open Sys2Proof

/-- SESSION_OPEN (10, R277, R278). -/
def execSessionOpen (t : Nat) (src : Source) (s : State) : Host.Outcome State Fault Refusal := act t (sessionOpen src) s

/-- SESSION_CLOSE (10, R279, R280). -/
def execSessionClose (t : Nat) (n : Fin 16) (s : State) : Host.Outcome State Fault Refusal :=
  act t (runJhp n.val 0x0102 (fixed 0) noRsvd 0 (closeBody n.val)) s

/-- SESSION_KEEPALIVE (10, R278). -/
def execSessionKeepalive (t : Nat) (n : Fin 16) (s : State) : Host.Outcome State Fault Refusal :=
  act t (runJhp n.val 0x0103 (fixed 0) noRsvd 0 (keepaliveBody n.val)) s

/-- SESSION_CHALLENGE (10, R283, R285). -/
def execSessionChallenge (t : Nat) (n : Fin 16) (s : State) : Host.Outcome State Fault Refusal :=
  act t (runJhp n.val 0x0104 (fixed 4) (zeroAt 1 3) 0 (challengeBody n.val)) s

/-- SESSION_AUTH (10, R284, R285). -/
def execSessionAuth (t : Nat) (n : Fin 16) (s : State) : Host.Outcome State Fault Refusal :=
  act t (runJhp n.val 0x0105 (fixed 36) (zeroAt 1 3) 0 (authBody n.val)) s

/-- SESSION_DROP (10, R282). -/
def execSessionDrop (t : Nat) (n : Fin 16) (s : State) : Host.Outcome State Fault Refusal :=
  act t (runJhp n.val 0x0106 (fixed 4) (zeroAt 1 3) 0 (dropBody n.val)) s

/-- SESSION_EVENTS (10, R290). -/
def execSessionEvents (t : Nat) (n : Fin 16) (s : State) : Host.Outcome State Fault Refusal :=
  act t (runJhp n.val 0x0107 (fixed 4) (fun p => eventsOk 0 p && zeroAt 2 2 p) 0 (eventsBody n.val)) s

/-- SESSION_INFO (17, Table 17.1). -/
def execSessionInfo (t : Nat) (n : Fin 16) (s : State) : Host.Outcome State Fault Refusal :=
  act t (runJhp n.val 0x0108 (fixed 0) noRsvd 0 (infoBody n.val)) s

/-- PAGE_TAKE (10, R297). -/
def execPageTake (t : Nat) (n : Fin 16) (s : State) : Host.Outcome State Fault Refusal :=
  act t (runJhp n.val 0x0110 (fixed 4) (zeroAt 2 2) 0 (takeBody n.val)) s

/-- PAGE_RELEASE (10, R296). -/
def execPageRelease (t : Nat) (n : Fin 16) (s : State) : Host.Outcome State Fault Refusal :=
  act t (runJhp n.val 0x0111 (fixed 4) (zeroAt 2 2) 0 (releaseBody n.val)) s

/-- PAGE_LOCK (10, R296). -/
def execPageLock (t : Nat) (n : Fin 16) (s : State) : Host.Outcome State Fault Refusal :=
  act t (runJhp n.val 0x0112 (fixed 4) (zeroAt 1 3) 2 (lockBody n.val)) s

/-- PAGE_UNLOCK (10, R296). -/
def execPageUnlock (t : Nat) (n : Fin 16) (s : State) : Host.Outcome State Fault Refusal :=
  act t (runJhp n.val 0x0113 (fixed 4) (zeroAt 1 3) 2 unlockBody) s

/-- FN_ACQUIRE (10, R292). -/
def execFnAcquire (t : Nat) (n : Fin 16) (s : State) : Host.Outcome State Fault Refusal :=
  act t (runJhp n.val 0x0210 (fixed 36) (zeroAt 33 3) 1 (acquireBody n.val)) s

/-- FN_RELEASE (10, R293). -/
def execFnRelease (t : Nat) (n : Fin 16) (s : State) : Host.Outcome State Fault Refusal :=
  act t (runJhp n.val 0x0211 (fixed 32) noRsvd 0 (fnReleaseBody n.val)) s

/-- LEASE_EXPIRY (10, R278). -/
def execLeaseExpiry (t : Nat) (n : Fin 16) (s : State) : Host.Outcome State Fault Refusal := act t (leaseExpired n.val) s

/-- DOORBELL_RING (10, R286). -/
def execDoorbellRing (t : Nat) (n : Fin 16) (s : State) : Host.Outcome State Fault Refusal := act t (doorbell n.val) s

/-- DOORBELL_PENDING_COPY (10, R286). -/
def execDoorbellPendingCopy (t : Nat) (n : Fin 16) (s : State) : Host.Outcome State Fault Refusal := act t (pendingCopy n.val) s

/-- REPLY_ACKNOWLEDGE (10, R305). -/
def execReplyAcknowledge (t : Nat) (n : Fin 16) (s : State) : Host.Outcome State Fault Refusal := act t (ackStaged n.val) s

/-- WIN_DATA_WRITE (10, R307). -/
def execWinDataWrite (t : Nat) (w : Word) (s : State) : Host.Outcome State Fault Refusal := act t (frontWrite 7 w) s

/-- WIN_DATA_READ (10, R307). -/
def execWinDataRead (t : Nat) (s : State) : Host.Outcome State Fault Refusal := act t frontDataRead s

/-- FRONT_REGISTER_WRITE (10, Table 10.13; 00, R12). -/
def execFrontRegisterWrite (t : Nat) (r : Fin 16) (w : Word) (s : State) : Host.Outcome State Fault Refusal :=
  act t (frontWrite r.val w) s

/-- SPIT_STATUS (10, R303). -/
def execSpitStatus (t : Nat) (mosi : List Byte) (part : Fin 8) (s : State) : Host.Outcome State Fault Refusal :=
  act t (spitRun 0 mosi part.val) s

/-- REG_READ (10, R306). -/
def execRegRead (t : Nat) (mosi : List Byte) (part : Fin 8) (s : State) : Host.Outcome State Fault Refusal :=
  act t (spitRun 1 mosi part.val) s

/-- REG_WRITE (10, R302). -/
def execRegWrite (t : Nat) (mosi : List Byte) (part : Fin 8) (s : State) : Host.Outcome State Fault Refusal :=
  act t (spitRun 2 mosi part.val) s

/-- MBX_WRITE (10, R302). -/
def execMbxWrite (t : Nat) (mosi : List Byte) (part : Fin 8) (s : State) : Host.Outcome State Fault Refusal :=
  act t (spitRun 3 mosi part.val) s

/-- MBX_READ (10, R305). -/
def execMbxRead (t : Nat) (mosi : List Byte) (part : Fin 8) (s : State) : Host.Outcome State Fault Refusal :=
  act t (spitRun 4 mosi part.val) s

/-- WIN_WRITE (10, R302). -/
def execWinWrite (t : Nat) (mosi : List Byte) (part : Fin 8) (s : State) : Host.Outcome State Fault Refusal :=
  act t (spitRun 5 mosi part.val) s

/-- WIN_READ (10, R304). -/
def execWinRead (t : Nat) (mosi : List Byte) (part : Fin 8) (s : State) : Host.Outcome State Fault Refusal :=
  act t (spitRun 6 mosi part.val) s

/-- SPIT_REFUSED_TYPE (10, R301). -/
def execSpitRefusedType (t : Nat) (mosi : List Byte) (part : Fin 8) (s : State) : Host.Outcome State Fault Refusal :=
  act t (spitRun 7 mosi part.val) s

/-- SPIT_PARTIAL_COMMAND_BYTE (10, R303). -/
def execSpitPartialCommandByte (t : Nat) (bits : Fin 8) (s : State) : Host.Outcome State Fault Refusal :=
  act t (spitPartial bits.val) s

end Sys2Proof.Machine
end

