-- ==== Sys2Proof/Machine/LinkCmds.lean ====
section
/-! DEFINITION. The commands of the frame mark and the die links (01; opcode_table.json, rows MARK_WORD_SEND to RETRY_TIMEOUT). -/

namespace Sys2Proof.Machine

open Sys2Proof



/-- MARK_WORD_SEND (R26). -/
def execMarkWordSend (t : Nat) (copy : Fin 2) (s : State) : Host.Outcome State Fault Refusal := act t (sendMark copy) s

/-- YARD_FRAME_MARK (R26). -/
def execYardFrameMark (t : Nat) (s : State) : Host.Outcome State Fault Refusal := act t yardMark s

/-- MARK (R27). -/
def execMark (t : Nat) (k : Fin 7) (err : WordErr) (fire : BitVec 16) (count : Word) (s : State) : Host.Outcome State Fault Refusal :=
  actOn k t (recvCtl k false err (.mark fire.toNat count) (recvMark k fire.toNat count)) s

/-- SHED_MARK_FIRE (R32). -/
def execShedMarkFire (t : Nat) (k : FiredMark) (s : State) : Host.Outcome State Fault Refusal :=
  actOn k.shed t (fireMark k.shed k.clocks) s

/-- FREE_RUN_MARK (R28). -/
def execFreeRunMark (t : Nat) (k : Fin 7) (s : State) : Host.Outcome State Fault Refusal := actOn k t (freeRun k) s

/-- GREY_CLOCK_LOCK (R31). -/
def execGreyClockLock (t : Nat) (k : Fin 7) (s : State) : Host.Outcome State Fault Refusal := actOn k t (lockClock k) s

/-- LINK_LATENCY_CALIBRATION (R30). -/
def execLinkLatencyCalibration (t : Nat) (k : Fin 7) (lat : Byte) (s : State) : Host.Outcome State Fault Refusal := actOn k t (calibrateLatency k lat) s

/-- LINK_TRAINED (02, R78). -/
def execLinkTrained (t : Nat) (k : Fin 7) (lat : Byte) (r : ShedReadings) (s : State) : Host.Outcome State Fault Refusal := actOn k t (linkTrained k lat r) s

/-- LINK_TRAIN_ATTEMPT (15, R423). -/
def execLinkTrainAttempt (t : Nat) (k : Fin 7) (s : State) : Host.Outcome State Fault Refusal := actOn k t (trainAttempt k) s

/-- WRITE (05, R156; 06, R193; 07, R213). -/
def execWrite (t : Nat) (k : Fin 7) (seq : Byte) (err : PacketErr) (s : State) : Host.Outcome State Fault Refusal :=
  actOn k t (recvPkt k false seq.toNat err (fun p => match p with | .write _ _ | .writeEngines _ | .writeCapture _ => true | _ => false)
    fun p => match p with
      | .write a ws => onWrite k a ws
      | .writeEngines r => onWriteEngines k r
      | .writeCapture c => onWriteCapture k c
      | _ => id) s

/-- READ_REQ (R35). -/
def execReadReq (t : Nat) (k : Fin 7) (seq : Byte) (err : PacketErr) (s : State) : Host.Outcome State Fault Refusal :=
  actOn k t (recvPkt k false seq.toNat err (fun p => match p with | .readReq _ => true | _ => false)
    fun p => match p with | .readReq a => onReadReq k a | _ => id) s

/-- READ_DATA (R35). -/
def execReadData (t : Nat) (k : Fin 7) (seq : Byte) (err : PacketErr) (s : State) : Host.Outcome State Fault Refusal :=
  actOn k t (recvPkt k true seq.toNat err (fun p => match p with | .readData _ _ => true | _ => false)
    fun p => match p with | .readData a ws => onReadData a ws | _ => id) s

/-- PREPARE (05, R157). `bad` is a word of the back buffers that fails its SECDED check now. -/
def execPrepare (t : Nat) (k : Fin 7) (seq : Byte) (err : PrepareErr) (s : State) : Host.Outcome State Fault Refusal :=
  actOn k t (recvPkt k false seq.toNat err.toPacketErr (fun p => match p with | .prepare _ => true | _ => false)
    fun p => match p with | .prepare i => onPrepare k i err.badWord | _ => id) s

/-- PREPARE_OK (05, R158). -/
def execPrepareOk (t : Nat) (k : Fin 7) (seq : Byte) (err : PacketErr) (s : State) : Host.Outcome State Fault Refusal :=
  actOn k t (recvPkt k true seq.toNat err (fun p => match p with | .prepareOk _ => true | _ => false)
    fun p => match p with | .prepareOk i => prepareOkFrom k i | _ => id) s

/-- PREPARE_FAIL (05, R157). -/
def execPrepareFail (t : Nat) (k : Fin 7) (seq : Byte) (err : PacketErr) (s : State) : Host.Outcome State Fault Refusal :=
  actOn k t (recvPkt k true seq.toNat err (fun p => match p with | .prepareFail _ => true | _ => false)
    fun p => match p with | .prepareFail i => onPrepareFail k i | _ => id) s

/-- FRAME_STATUS (09, R263). -/
def execFrameStatus (t : Nat) (k : Fin 7) (seq : Byte) (err : PacketErr) (s : State) : Host.Outcome State Fault Refusal :=
  actOn k t (recvPkt k true seq.toNat err (fun p => match p with | .frameStatus _ => true | _ => false)
    fun p => match p with | .frameStatus f => onFrameStatus k f | _ => id) s

/-- EVENT (08, R248). -/
def execEvent (t : Nat) (k : Fin 7) (seq : Byte) (err : PacketErr) (s : State) : Host.Outcome State Fault Refusal :=
  actOn k t (recvPkt k true seq.toNat err (fun p => match p with | .event _ => true | _ => false)
    fun p => match p with | .event e => onEvent k e | _ => id) s

/-- COMMIT (05, R160). -/
def execCommit (t : Nat) (k : Fin 7) (seq : Byte) (err : PacketErr) (s : State) : Host.Outcome State Fault Refusal :=
  actOn k t (recvPkt k false seq.toNat err (fun p => match p with | .command (.commit _ _) => true | _ => false)
    fun p => match p with | .command (.commit i m) => onCommit k i m | _ => id) s

/-- ABORT (05, R159). -/
def execAbort (t : Nat) (k : Fin 7) (seq : Byte) (err : PacketErr) (s : State) : Host.Outcome State Fault Refusal :=
  actOn k t (recvPkt k false seq.toNat err (fun p => match p with | .command .abort => true | _ => false) fun _ => onAbort k) s

/-- PAT_CTL (06, R192). -/
def execPatCtl (t : Nat) (k : Fin 7) (seq : Byte) (err : PacketErr) (s : State) : Host.Outcome State Fault Refusal :=
  actOn k t (recvPkt k false seq.toNat err (fun p => match p with | .command (.patCtl _) => true | _ => false)
    fun p => match p with | .command (.patCtl c) => onPatCtl k c | _ => id) s

/-- DERATE (07, R223). -/
def execDerate (t : Nat) (k : Fin 7) (seq : Byte) (err : PacketErr) (s : State) : Host.Outcome State Fault Refusal :=
  actOn k t (recvPkt k false seq.toNat err (fun p => match p with | .command (.derate _ _) => true | _ => false)
    fun p => match p with | .command (.derate m l) => onDerate k m l | _ => id) s

/-- FAIL_OFF (08, R248). -/
def execFailOff (t : Nat) (k : Fin 7) (seq : Byte) (err : PacketErr) (s : State) : Host.Outcome State Fault Refusal :=
  actOn k t (recvPkt k false seq.toNat err (fun p => match p with | .command (.failOff _) => true | _ => false)
    fun p => match p with | .command (.failOff f) => onFailOff k f | _ => id) s

/-- GOVERN (09, R265). -/
def execGovern (t : Nat) (k : Fin 7) (seq : Byte) (err : PacketErr) (s : State) : Host.Outcome State Fault Refusal :=
  actOn k t (recvPkt k false seq.toNat err (fun p => match p with | .command (.govern _ _ _) => true | _ => false)
    fun p => match p with | .command (.govern a b c) => onGovern k a b c | _ => id) s

/-- ROUND (09, R258). -/
def execRound (t : Nat) (k : Fin 7) (seq : Byte) (err : PacketErr) (s : State) : Host.Outcome State Fault Refusal :=
  actOn k t (recvPkt k false seq.toNat err (fun p => match p with | .command (.round _) => true | _ => false)
    fun p => match p with | .command (.round v) => onRound k v | _ => id) s

/-- FALLBACK (15, R412). -/
def execFallback (t : Nat) (k : Fin 7) (seq : Byte) (err : PacketErr) (s : State) : Host.Outcome State Fault Refusal :=
  actOn k t (recvPkt k false seq.toNat err (fun p => match p with | .command .fallback => true | _ => false) fun _ => onFallback k) s

/-- INJECT (15, R432). -/
def execInject (t : Nat) (k : Fin 7) (seq : Byte) (err : PacketErr) (s : State) : Host.Outcome State Fault Refusal :=
  actOn k t (recvPkt k false seq.toNat err (fun p => match p with | .command (.inject _ _ _) => true | _ => false)
    fun p => match p with | .command (.inject a b c) => actInject k a b c | _ => id) s

/-- ACK (R35). -/
def execAck (t : Nat) (k : Fin 7) (atYard : Bool) (err : WordErr) (upTo : Byte) (s : State) : Host.Outcome State Fault Refusal :=
  actOn k t (recvCtl k atYard err (.ack upTo.toNat) (acked k atYard upTo.toNat)) s

/-- NAK (R36). -/
def execNak (t : Nat) (k : Fin 7) (atYard : Bool) (err : WordErr) (expected : Byte) (s : State) : Host.Outcome State Fault Refusal :=
  actOn k t (recvCtl k atYard err (.nak expected.toNat) (recvNak k atYard expected.toNat)) s

/-- The newest HEARTBEAT word on its way to an end. -/
def heartbeatOn (s : State) (k : Nat) (atYard : Bool) : Ctl :=
  (((freeHeld s.now (getEnd s k (!atYard))).ctl.map (·.1)).find? fun c => match c with | .heartbeat _ => true | _ => false).getD (.heartbeat 0)

/-- HEARTBEAT (R37). -/
def execHeartbeat (t : Nat) (k : Fin 7) (atYard : Bool) (err : WordErr) (s : State) : Host.Outcome State Fault Refusal :=
  actOn k t (fun s => recvCtl k atYard err (heartbeatOn s k atYard) id s) s

/-- IDLE_WORD (R37). -/
def execIdleWord (t : Nat) (k : Fin 7) (atYard : Bool) (err : WordErr) (s : State) : Host.Outcome State Fault Refusal :=
  actOn k t (recvIdle k atYard err) s

/-- HEARTBEAT_SEND (R37). -/
def execHeartbeatSend (t : Nat) (k : Fin 7) (atYard : Bool) (s : State) : Host.Outcome State Fault Refusal := actOn k t (heartbeatSend k atYard) s

/-- HEARTBEAT_TIMEOUT (R38). -/
def execHeartbeatTimeout (t : Nat) (k : Fin 7) (atYard : Bool) (s : State) : Host.Outcome State Fault Refusal := actOn k t (heartbeatTimeout k atYard) s

/-- RETRY_TIMEOUT (R36). -/
def execRetryTimeout (t : Nat) (k : Fin 7) (atYard : Bool) (s : State) : Host.Outcome State Fault Refusal := actOn k t (retryTimeout k atYard) s

end Sys2Proof.Machine
end

