-- ==== Sys2Proof/Machine/NetOps.lean ====
section
/-! DEFINITION. The switch, the two Ethernet ports, and what the firmware does with IPv4, JHP and window datagrams
(11, R311 to R326). -/

namespace Sys2Proof.Machine

open Sys2Proof

/-! Ports. -/

/-- PLCA nodes, the coordinator among them (R313). -/
def nodeCount (s : State) : Nat := yf s R.netCfg 28 24 + 1

/-- The shadow of Ethernet port `p`. -/
def isPort (p : Nat) (b : ShadowBlock) : Bool := match b with | .port q => q.val == p | _ => false
def portShadow (s : State) (p : Nat) : Bool := s.faults.shadows.any fun x => isPort p x.block

/-- A frame of port `p` is dropped and counted in a field of NET_ST, or in the port's shadow (15, Tables 15.6, 15.13). -/
def netDrop (p hi lo : Nat) (s : State) : State :=
  if portShadow s p then addTrip (isPort p) { code := 0x0B07, p1 := p, p2 := 10, die := 0, n := 1 } s
  else bumpReg yardDie R.netSt hi lo s

def dropUnsup (p : Nat) (s : State) : State := netDrop p 31 24 s
def dropRate (p : Nat) (s : State) : State := netDrop p 23 16 s

/-- A frame for the firmware, which does not run (R319). -/
def cpuLost (s : State) : State := if yardShadow s then yardTrip 9 0 s else s

/-! Forwarding (R316 to R318). -/

/-- Static entry `i` as one number (Table 11.5). -/
def staticEntry (s : State) (i : Nat) : Nat :=
  (reg s yardDie (R.fwdEntry + 2 * i)).toNat + (reg s yardDie (R.fwdEntry + 2 * i + 1)).toNat * 2 ^ 32

/-- Ports of a static entry for a MAC address and VID; the device's own address names the CPU port. -/
def staticPorts (s : State) (mac : BitVec 48) (vid : Nat) : Option (List Nat) :=
  if mac = macAddr s then some [2]
  else
    ((List.range 64).find? fun i =>
      let e := staticEntry s i
      e % 2 == 1 && e / 16 % 4096 == vid && e / 65536 == mac.toNat).map fun i =>
        (List.range 3).filter fun p => (staticEntry s i / 2).testBit p

/-- The group bit of a MAC address: multicast or broadcast. -/
def isGroup (mac : BitVec 48) : Bool := mac.toNat.testBit 40

/-- Ports that a destination names, before VLAN and ingress are taken off (R316, steps 2 and 3). -/
def lookup (s : State) (mac : BitVec 48) (vid : Nat) : List Nat :=
  match (staticPorts s mac vid).filter fun _ => mac ≠ BitVec.allOnes 48 with
  | some l => l
  | none =>
    if isGroup mac then [0, 1, 2]
    else
      match s.net.learned.find? fun e => e.mac == mac && e.vid == vid with
      | some e => [e.port]
      | none => [0, 1, 2]

/-- Learning of a source (R317). -/
def learn (p : Nat) (mac : BitVec 48) (vid : Nat) (s : State) : State :=
  if p = 2 || yf s (R.swPort + p) 7 7 = 0 || isGroup mac || (staticPorts s mac vid).isSome then s
  else
    let e : Learned := { mac := mac, vid := vid, port := p, seen := s.now }
    let rest := s.net.learned.filter fun x => !(x.mac == mac && x.vid == vid)
    if rest.length < 512 then { s with net := { s.net with learned := rest ++ [e] } } else netDrop p 15 8 s

/-- Length of a frame with its FCS, in bytes. -/
def frameBytes (f : EthFrame) : Nat := 18 + (if f.tagged then 4 else 0) + f.payload.length

/-- Token bucket of a port (R318): whether the frame passes, and the state. -/
def rateAdmit (p bytes : Nat) (s : State) : Bool × State :=
  let rate := yf s (R.swPort + p) 19 10
  if rate = 0 then (true, s)
  else
    let cost := bytes * 8 * 10000
    let depth := 3000 * 8 * 10000
    let miss := Table.get 0 s.net.tokens p - rate * (s.now - Table.get 0 s.net.tokenAt p)
    let ok : Bool := miss + cost ≤ depth
    (ok, { s with net := { s.net with
      tokens := Table.put 0 s.net.tokens p (if ok then miss + cost else miss)
      tokenAt := Table.put 0 s.net.tokenAt p s.now } })

/-- The frame as port `p` sends it (R316, step 4). -/
def outFrame (s : State) (p vid : Nat) (f : EthFrame) : EthFrame :=
  { f with tagged := !untags s p vid, vid := vid, pcp := if f.tagged then f.pcp else 0 }

/-- High-priority egress (R316). -/
def isHigh (f : EthFrame) : Bool := f.tagged && f.pcp ≥ 4

/-- A frame leaves by one port. Port 1 queues it for the coordinator's own opportunity (R313). -/
def sendOut (vid : Nat) (f : EthFrame) (p : Nat) (s : State) : State :=
  let g := outFrame s p vid f
  if p = 2 then
    if vid ≠ yf s R.ipMisc 25 14 then s
    else if !s.power.fw then cpuLost s
    else
      let a := rateAdmit 2 (frameBytes f) s
      if a.1 then { a.2 with net := { a.2.net with out := .frame 2 g (isHigh f) :: a.2.net.out } } else dropRate 2 a.2
  else if p = 0 then if t1On s then emit (.frame 0 g (isHigh f)) s else s
  else if t1sOn s then queueOut (isHigh f) (.frame 1 g (isHigh f)) s
  else s

/-- Presence of a follower (R314): a frame came in its opportunity. -/
def nodeSeen (n : Nat) (s : State) : State :=
  if n = 0 || n ≥ nodeCount s then s
  else
    let was := yf s R.t1sPres n n
    let s := { s with net := { s.net with nodeSeen := Table.put 0 s.net.nodeSeen n s.now } }
    if was = 1 then s else log 0x0903 0 n 0 (setRegf yardDie R.t1sPres n n 1 s)

/-- A frame passes the port's ingress checks and is forwarded (R316). -/
def forward (p : Nat) (f : EthFrame) (s : State) : State :=
  let vid := if f.tagged then f.vid else pvid s p
  if (f.tagged && !inVlan s p vid) || (!f.tagged && yf s (R.swPort + p) 9 9 = 1) then s
  else
    let s := learn p f.src vid s
    forAll ((lookup s f.dst vid).filter fun q => q ≠ p && inVlan s q vid) (sendOut vid f) s

/-- ETHERNET_FRAME (R311, R314, R316 to R319). A collision is counted and no frame comes of it. -/
def ethFrame (f : EthFrame) (s : State) : State :=
  let p := f.port.val
  let up := if p = 0 then t1On s else if p = 1 then t1sOn s else netRuns s && s.power.fw
  if !up then s
  else if f.collision then (if p = 1 then bumpReg yardDie R.netSt 7 4 s else s)
  else
    let s := if p = 1 then nodeSeen f.node s else s
    if f.unsupported then dropUnsup p s
    else if p = 2 then forward p f s
    else
      let a := rateAdmit p (frameBytes f) s
      if a.1 then forward p f a.2 else dropRate p a.2

/-- LEARNED_ENTRY_AGE_OUT (R317). -/
def ageOut (mac : BitVec 48) (vid : Nat) (s : State) : State :=
  let old := fun (e : Learned) => e.mac == mac && e.vid == vid && e.seen + yf s R.netSw 31 16 * sec ≤ s.now
  { s with net := { s.net with learned := s.net.learned.filter fun e => !old e } }

/-- T1_LINK_UP (R312, R320). Without the firmware the ARP waits for its start (log entry 210). -/
def linkUp (s : State) : State :=
  if !netRuns s || yf s R.netCfg 31 31 = 0 || s.net.link then s
  else
    let s := log 0x0901 0 (yf s R.netCfg 30 30) 0 { s with net := { s.net with link := true } }
    if s.power.fw then announce s else { s with net := { s.net with arpDue := true } }

/-- T1_LINK_DOWN (R312, R317). -/
def linkDown (s : State) : State :=
  if !s.net.link then s
  else
    let s := { s with net := { s.net with link := false, arpDue := false, learned := s.net.learned.filter fun e => e.port ≠ 0 } }
    if portShadow s 0 then addTrip (isPort 0) { code := 0x0902, p1 := 0, p2 := 0, die := 0, n := 1 } s
    else log 0x0902 1 0 0 s

/-- PLCA_CYCLE (R313, R315): BEACON, then the coordinator's own burst, high priority first. -/
def plcaCycle (s : State) : State :=
  if !t1sOn s || s.power.fail.isSome then s
  else
    let q := Table.get [] s.net.egress 1
    let burst := ((q.filter (·.1)) ++ (q.filter fun x => !x.1)).take (yf s R.netCfg 15 8 + 1)
    let s := emit (.beacon (nodeCount s) burst.length) s
    let s := forAll burst (fun x s => emit x.2 s) s
    { s with net := { s.net with egress := Table.put [] s.net.egress 1 (burst.foldl (fun l x => l.erase x) q) } }

/-- NODE_PRESENCE_TIMEOUT (R314). -/
def nodeGone (n : Nat) (s : State) : State :=
  if n = 0 || yf s R.t1sPres n n = 0 || s.now < Table.get 0 s.net.nodeSeen n + yf s R.netCfg 7 4 * sec then s
  else
    let s := setRegf yardDie R.t1sPres n n 0 s
    if portShadow s 1 then addTrip (isPort 1) { code := 0x0904, p1 := n, p2 := 0, die := 0, n := 1 } s
    else log 0x0904 0 n 0 s

/-! IPv4 (R320). -/

/-- The firmware can be reached on an Ethernet port. -/
def portUp (s : State) (p : Fin 2) : Bool := if p.val = 0 then t1On s else t1sOn s

/-- What a packet for the firmware does when it can be taken; lost while the firmware does not run (R319). -/
def toCpu (p : Fin 2) (f : State → State) (s : State) : State :=
  if !portUp s p then s else if !s.power.fw then cpuLost s else f s

/-- The ARP cache takes an address: 16 entries, newest first (R320). -/
def arpLearn (ip : Word) (mac : BitVec 48) (s : State) : State :=
  { s with net := { s.net with arp := ((ip, mac) :: s.net.arp.filter fun e => e.1 ≠ ip).take 16 } }

/-- ARP_REQUEST (R320). -/
def arpRequest (r : IpRequest) (s : State) : State :=
  toCpu r.port (fun s =>
    if r.dstIp ≠ reg s yardDie R.ipAddr then s else sendOwn r.port.val (.arpReply r.mac r.srcIp) (arpLearn r.srcIp r.mac s)) s

/-- A multicast or broadcast IPv4 address. -/
def ipGroup (s : State) (ip : Word) : Bool :=
  ip.toNat ≥ 224 * 2 ^ 24 || (inPrefix s ip && ip.toNat % 2 ^ (32 - yf s R.ipMisc 31 26) + 1 == 2 ^ (32 - yf s R.ipMisc 31 26))

/-- An IPv4 packet for the firmware is taken, or discarded and counted (R320). A group address is not the device's. -/
def ipTaken (p : Fin 2) (options fragment headerOk : Bool) (dst : Word) (f : State → State) (s : State) : State :=
  toCpu p (fun s =>
    if options || fragment || !headerOk then dropUnsup p.val s
    else if dst ≠ reg s yardDie R.ipAddr then if ipGroup s dst then s else dropUnsup p.val s
    else f s) s

/-- ICMP_ECHO_REQUEST (R320). -/
def icmpEcho (r : IpRequest) (s : State) : State :=
  ipTaken r.port r.options r.fragment r.headerOk r.dstIp (fun s =>
    if inPrefix s r.srcIp || reg s yardDie R.ipGw ≠ 0 then sendOwn r.port.val (.echoReply r.srcIp r.data) s else s) s

/-! JHP datagrams (R321 to R324). -/

def sourceOf (d : Datagram) : Source := .udp d.port d.ip d.sport

/-- A source may still be answered with the no-session error: fewer than 10 in the last second (10, R276). -/
def mayAnswer (s : State) (src : Source) : Bool :=
  (s.net.answers.filter fun a => decide (a.1 = src) && s.now < a.2 + sec).length < 10

/-- An answer without a session goes out, within the limit of R276. -/
def answerLimited (src : Source) (send : State → State) (s : State) : State :=
  if !mayAnswer s src then s
  else send { s with net := { s.net with answers := (src, s.now) :: s.net.answers.filter fun a => s.now < a.2 + sec } }

/-- An answer outside any mailbox: OPCODE and TAG of what arrived, and the code. -/
def bareReply (src : Source) (mbx : Nat) (slot : List Byte) (code : Nat) (s : State) : State :=
  sendTo src mbx (le 2 (u16 slot 0) ++ le 2 (u16 slot 2) ++ le 2 0 ++ le 2 (code * 256)) s

/-- The no-session error (10, R276). -/
def noSession (src : Source) (mbx : Nat) (slot : List Byte) (s : State) : State :=
  answerLimited src (bareReply src mbx slot 8) s

/-- A malformed datagram or command frame (R322, R329): the length error, and a violation of the source's session. -/
def malformed (src : Source) (mbx : Nat) (slot : List Byte) (s : State) : State :=
  match sourceSession s src with
  | some n => violation n 2 (u16 slot 0) (bareReply src mbx slot 2 s)
  | none => noSession src mbx slot s

/-- A SESSION_OPEN waits for its turn (10, R277); a copy of one that waits is not queued again. -/
def queueOpen (src : Source) (seq : Nat) (slot : List Byte) (s : State) : State :=
  let e : Entry := { id := 0, opcode := u16 slot 0, tag := u16 slot 2, len := u16 slot 4, flags := u16 slot 6,
                     payload := padTo 56 (slot.drop 8), st := .waiting }
  let r : OpenReq := { src := src, seq := seq, entry := e }
  if s.net.opens.contains r then s else { s with net := { s.net with opens := s.net.opens ++ [r] } }

/-- A SESSION_OPEN from a UDP source that holds session `n` (10, R277). -/
def reopen (n : Nat) (src : Source) (seq : Nat) (slot : List Byte) (s : State) : State :=
  let x := getSess s n
  if seq = x.openSeq then
    if (getMbx s n).replies.any fun i => i.entry == 0 then s else stageOpenReply n s
  else bareReply src 0xFF slot 0x0D s

/-- A command slot arrives for mailbox `n`: it is written and its doorbell rung (10, R286). -/
def putCommand (n : Nat) (slot : List Byte) (s : State) : State :=
  ringDoorbell n (updMbx n (fun m => { m with slot := Table.putAll 0 m.slot 0 (padTo 64 slot) }) s)

/-- A COMMAND datagram (R323). -/
def jhpCommand (src : Source) (mbx seq : Nat) (slot : List Byte) (s : State) : State :=
  match sourceSession s src with
  | none => if mbx = 0xFF && u16 slot 0 = 0x0101 then queueOpen src seq slot s else noSession src mbx slot s
  | some n =>
    let s := renew n s
    if u16 slot 0 = 0x0101 && (mbx = 0xFF || mbx = n) then reopen n src seq slot s
    else if mbx ≠ n then noSession src mbx slot s
    else if (getMbx s n).bell then
      match src with
      | .udp p ip sp => sendUdp p.val ip (jhpPort s) sp (jhpHead 0x82 n ++ slot.take 8) s
      | _ => s
    else if (getSess s n).cmdSeq = some seq then s
    else putCommand n slot (updSess n (fun x => { x with cmdSeq := some seq }) s)

/-- An ACK datagram (R324). -/
def jhpAck (src : Source) (mbx tag : Nat) (s : State) : State :=
  match sourceSession s src with
  | none => noSession src mbx [] s
  | some n =>
    if mbx ≠ n then noSession src mbx [] s
    else
      match stagedItem (getMbx s n) with
      | some x => if x.tag = tag then acknowledge n s else bumpReg yardDie R.netSt 3 0 s
      | none => bumpReg yardDie R.netSt 3 0 s

/-- A datagram on the JHP port (R321 to R324). A datagram to neither port is not supported (R311). -/
def jhpDatagram (d : Datagram) (s : State) : State :=
  ipTaken d.port d.options d.fragment d.headerOk d.dstIp (fun s =>
    if d.dport = winPort s then s
    else if d.dport ≠ jhpPort s then dropUnsup d.port.val s
    else if !d.sumOk || !s.power.ready then s
    else
      let s := arpLearn d.ip d.mac s
      let b := d.body
      let src := sourceOf d
      let body := b.drop 8
      let headOk := b.length ≥ 8 && u16 b 0 = 0x4A48 && u16 b 6 = 0
      if headOk && u8 b 2 = 1 && body.length ≥ 8 && body.length = 8 + u16 body 4 then jhpCommand src (u8 b 3) (u16 b 4) body s
      else if headOk && u8 b 2 = 2 && body.length = 2 then jhpAck src (u8 b 3) (u16 body 0) s
      else malformed src (u8 b 3) body s) s

/-- A staged item of a UDP or CAN session whose resend time has come is sent again (R324, R330). -/
def resendItem (udp : Bool) (n : Nat) (s : State) : State :=
  let here := match (getSess s n).src with | .udp .. => udp | .can .. => !udp | .spit => false
  match stagedItem (getMbx s n) with
  | some x =>
    if here && s.power.ready && (getSess s n).isOpen && x.sentAt + yf s R.ipMisc 13 7 * ms ≤ s.now then transmit n s else s
  | none => s

/-! Window datagrams (R325, R326). -/

/-- The session that a window datagram names, from its source's address and port, whatever the UDP port (R321). -/
def winSession (s : State) (d : Datagram) (n : Nat) : Option Nat :=
  match (getSess s n).src with
  | .udp p ip _ => if (getSess s n).isOpen && p = d.port && ip = d.ip then some n else none
  | _ => none

/-- Some session of the datagram's address and ingress port. -/
def anySession (s : State) (d : Datagram) : Option Nat := (openSessions s).find? fun n => (winSession s d n).isSome

/-- A reply on the window port: the header echoed with its type and code, and the data. -/
def winReply (d : Datagram) (type code : Nat) (data : List Byte) (s : State) : State :=
  let b := d.body
  sendUdp d.port.val d.ip (winPort s) d.sport
    (le 2 0x5748 ++ le 1 type ++ slice (padTo 16 b) 3 11 ++ le 1 code ++ zeros 1 ++ data) s

/-- Reply type of a request. -/
def winReplyType (b : List Byte) : Nat := if u8 b 2 = 0x12 then 0x14 else 0x13

/-- A read is answered (R326). -/
def answerRead (d : Datagram) (s : State) : State :=
  let b := d.body
  winReply d 0x14 0 (readPage s (u8 b 7) (u16 b 8) (u16 b 10)) s

/-- The header and length of a window datagram are well formed (R322, Table 11.7). -/
def winFormed (b : List Byte) : Bool :=
  b.length ≥ 16 && u16 b 0 = 0x5748 && (u8 b 2 = 0x11 || u8 b 2 = 0x12) && u8 b 3 < 4 && u8 b 14 = 0 && u8 b 15 = 0
  && b.length = 16 + (if u8 b 2 = 0x11 then u16 b 10 else 0)

/-- A WRITE of session `n` (R325). -/
def winWriteOf (n : Nat) (d : Datagram) (s : State) : State :=
  let b := d.body
  let seq := u16 b 4
  match (getSess s n).writeSeq.filter fun w => w.1 == seq with
  | some w => winReply d 0x13 w.2.toNat [] s
  | none =>
    let r := windowWrite n (u8 b 7) (u16 b 8) (b.drop 16) ((u8 b 3).testBit 0) ((u8 b 3).testBit 1) (u16 b 12) s
    let s := if r.1 = 0 then updSess n (fun x => { x with writeSeq := some (seq, 0) }) r.2 else r.2
    windowRefused n (u8 b 7) (r.1, winReply d 0x13 r.1 [] s)

/-- A READ (R326): delayed while the generation word of a device-written page is odd. -/
def winReadOf (d : Datagram) (s : State) : State :=
  let b := d.body
  if devPage (u8 b 7) && pageGen s (u8 b 7) % 2 = 1 then
    let r : DelayedRead := { d := d, page := u8 b 7, off := u16 b 8, count := u16 b 10 }
    { s with win := { s.win with delayed := s.win.delayed ++ [r] } }
  else answerRead d s

/-- A datagram on the window port (R321, R322, R325, R326). -/
def winDatagram (d : Datagram) (s : State) : State :=
  ipTaken d.port d.options d.fragment d.headerOk d.dstIp (fun s =>
    if d.dport ≠ winPort s || !d.sumOk || !s.power.ready then s
    else
      let s := arpLearn d.ip d.mac s
      let b := d.body
      match (if b.length > 6 then winSession s d (u8 b 6) else none).orElse fun _ => if winFormed b then none else anySession s d with
      | none => answerLimited (sourceOf d) (winReply d (winReplyType b) 8 []) s
      | some n =>
        let bad := u16 b 8 + u16 b 10 > 4096 || u16 b 10 = 0 || u16 b 10 > 1408
        if !winFormed b then violation n 2 (0x10000 + u8 b 7) (winReply d (winReplyType b) 2 [] s)
        else
          let s := renew n s
          if bad then violation n 2 (0x10000 + u8 b 7) (winReply d (winReplyType b) 2 [] s)
          else if u8 b 2 = 0x11 then winWriteOf n d s
          else winReadOf d s) s

/-- WINDOW_READ_DELAYED_COPY (R326): the oldest delayed read whose page is even again. -/
def delayedCopy (s : State) : State :=
  match s.win.delayed.find? fun r => pageGen s r.page % 2 = 0 with
  | none => s
  | some r => answerRead r.d { s with win := { s.win with delayed := s.win.delayed.erase r } }

end Sys2Proof.Machine
end

