-- ==== Sys2Proof/Machine/CanOps.lean ====
section
/-! DEFINITION. The CAN FD controllers, JHP over CAN and the message map (11, R327 to R336). -/

namespace Sys2Proof.Machine

open Sys2Proof

/-- A controller receives: enabled, on the bus, its firmware running (R327, R328). -/
def canHears (s : State) (c : Nat) : Bool := netRuns s && s.power.fw && canOn s c

/-! JHP over CAN (R329, R330). -/

/-- The place of an identifier within the JHP identifiers of a controller, 0 to 31. -/
def jhpId (s : State) (c : Nat) (f : CanFrame) : Option Nat :=
  if yf s (R.canJhp + 8 * c) 31 31 = 1 && f.ide == canIde s c && canBase s c ≤ f.id && f.id ≤ canBase s c + 31 then
    some (f.id - canBase s c)
  else none

/-- Source `k` of controller `c`. -/
def canSource (c : Fin 2) (k : Nat) : Source := .can c (Fin.ofNat 8 k)

/-- CAN_JHP_COMMAND_FRAME (R329, R330). -/
def canCommand (c : Fin 2) (f : CanFrame) (s : State) : State :=
  match jhpId s c.val f with
  | none => s
  | some i =>
    if i % 4 ≠ 0 || !canHears s c.val || !s.power.ready then s
    else
      let src := canSource c (i / 4)
      let b := f.data
      let bad := !f.fdf || b.length < 8 || b.length < 8 + u16 b 4
      match sourceSession s src with
      | none =>
        if bad then answerLimited src (bareReply src 0xFF b 2) s
        else if u16 b 0 = 0x0101 then queueOpen src 0 b s
        else noSession src 0xFF b s
      | some n =>
        if bad then violation n 2 (u16 b 0) (bareReply src n b 2 s)
        else
          let s := renew n s
          if (getMbx s n).bell then
            emitCan c.val (canBase s c.val + 4 * (i / 4) + 1) (canIde s c.val) true (b.take 4) s
          else putCommand n (b.take (8 + u16 b 4)) s

/-- CAN_JHP_ACK_FRAME (R330). -/
def canAck (c : Fin 2) (f : CanFrame) (s : State) : State :=
  match jhpId s c.val f with
  | none => s
  | some i =>
    if i % 4 ≠ 2 || !canHears s c.val || !s.power.ready || f.data.length < 2 then s
    else
      match sourceSession s (canSource c (i / 4)) with
      | none => s
      | some n =>
        match stagedItem (getMbx s n) with
        | some x => if x.tag = u16 f.data 0 then acknowledge n s else s
        | none => s

/-! The message map (R331 to R335). -/

/-- Entry `i` matches a frame's identifier and format (R331). -/
def entryMatches (s : State) (c i : Nat) (f : CanFrame) : Bool :=
  let w := mapWord s c i 0
  let m := (mapWord s c i 1).fld 28 0
  mapValid s c i && mapKind s c i ≤ 1 && w.bit 29 == f.ide && w.bit 30 == f.fdf && f.id &&& m == w.fld 28 0 &&& m

/-- The payload ends before the field does (R331). -/
def tooShort (s : State) (c i : Nat) (f : CanFrame) : Bool :=
  f.data.length ≤ mapByte s c i + (mapShift s c i + mapWidth s c i - 1) / 8

/-- Field value of an entry (R331). -/
def fieldOf (s : State) (c i : Nat) (f : CanFrame) : Nat :=
  ofLe (slice f.data (mapByte s c i) 3) >>> mapShift s c i % 2 ^ mapWidth s c i

/-- A VALUE entry acts (R333): while the map drives the function, its value joins the next round. -/
def valueActs (c i v : Nat) (s : State) : State :=
  let fn := mapTarget s c i
  let s := setMapRun c i { mapRun s c i with last := some v, seen := s.now, timedOut := false } s
  if (getFn s fn).holder ≠ .map then s
  else
    let s := updFn fn (fun x => { x with lapsed := false }) s
    let x := v * 65535 / (2 ^ mapWidth s c i - 1)
    { s with scene := { s.scene with
      heldLapses := s.scene.heldLapses.filter (· ≠ fn), heldValues := Table.put 0 s.scene.heldValues fn (x + 1) } }

/-- A TRIGGER entry acts (R334). -/
def triggerActs (c i v : Nat) (s : State) : State :=
  let old := (mapRun s c i).trig
  let s := setMapRun c i { mapRun s c i with trig := some v } s
  if v = mapPrio s c i && old ≠ some v && mapTarget s c i < 64 then raiseTrigger (mapTarget s c i) (controlMark s) s else s

/-- One entry and one frame (R331, R332). -/
def entryActs (c : Nat) (f : CanFrame) (i : Nat) (s : State) : State :=
  if mapKind s c i = 0 && !mapActive s c i then bumpReg yardDie (R.canSt + 8 * c) 23 16 s
  else if tooShort s c i f then s
  else if mapKind s c i = 0 then valueActs c i (fieldOf s c i f) s
  else triggerActs c i (fieldOf s c i f) s

/-- CAN_DATA_FRAME (R331): every matching entry in index order; a frame too short for a matching entry is counted once. -/
def canMatch (c : Nat) (f : CanFrame) (s : State) : State :=
  if (jhpId s c f).isSome || !canHears s c then s
  else
    let l := (List.range 64).filter fun i => entryMatches s c i f
    let short := l.any fun i => (mapKind s c i ≠ 0 || mapActive s c i) && tooShort s c i f
    let s := if short then bumpReg yardDie (R.canSt + 8 * c) 31 24 s else s
    forAll l (entryActs c f) s

/-- CAN_VALUE_TIMEOUT (R333): the function takes its LAPSE setting and the map keeps it. -/
def valueTimeout (c i : Nat) (s : State) : State :=
  let e := mapRun s c i
  if !s.power.fw || !mapActive s c i || mapTime s c i = 0 || e.timedOut || s.now < e.seen + mapTime s c i * 10 * ms then s
  else
    let s := setMapRun c i { e with timedOut := true } s
    if (getFn s (mapTarget s c i)).holder = .map then lapseFn (mapTarget s c i) s else s

/-- State code of a function in a FUNCTIONS frame (Table 11.9). -/
def fnStatus (s : State) (n : Nat) : Nat :=
  let x := getFn s n
  if x.st ≠ 0 then x.st + 1
  else
    let lit := (present s).any fun k =>
      let m := applied s k
      (sitesOf m n).any fun i => frameValue m i ≠ 0
    bit01 lit

/-- Payload of a DEVICE frame (Table 11.9). -/
def deviceFrame (s : State) : List Byte :=
  le 1 (modeCode s)
  ++ le 1 (bit01 (failN s) + 2 * bit01 (s.fns.any fun p => p.2.st == 1) + 4 * bit01 (faultSum s ≠ 0))
  ++ le 2 (tjCode s) ++ le 1 (steps s) ++ [s.net.counter] ++ le 2 (s.marks.count.toNat % 65536)

/-- Payload of a FUNCTIONS frame (Table 11.9). -/
def functionsFrame (s : State) : List Byte :=
  (List.range 64).map fun i =>
    BitVec.ofNat 8 (fnStatus s (4 * i) + 4 * fnStatus s (4 * i + 1) + 16 * fnStatus s (4 * i + 2) + 64 * fnStatus s (4 * i + 3))

/-- CAN_STATUS_TX (R335). A FUNCTIONS entry requires an FD frame; in a power-fail nothing is transmitted (02, R81) and nothing counted. -/
def statusTx (c i : Nat) (s : State) : State :=
  let w := mapWord s c i 0
  let fns := mapByte s c i = 1
  if !canHears s c || !mapValid s c i || mapKind s c i ≠ 2 || s.now < (mapRun s c i).sentAt + mapTime s c i * 10 * ms
      || (fns && !w.bit 30) || s.power.fail.isSome then s
  else
    let data := if fns then functionsFrame s else deviceFrame s
    let s := setMapRun c i { mapRun s c i with sentAt := s.now } (emitCan c (w.fld 28 0) (w.bit 29) (w.bit 30) data s)
    { s with net := { s.net with counter := s.net.counter + 1 } }

/-! The controllers (R328). -/

/-- Error counters of CAN_ST. -/
def setErrors (c tec rec : Nat) (s : State) : State :=
  setRegf yardDie (R.canSt + 8 * c) 15 8 tec (setRegf yardDie (R.canSt + 8 * c) 7 0 rec s)

/-- CAN_BUS_OFF (R328). -/
def busOff (c tec : Nat) (s : State) : State :=
  if !netRuns s || !canOn s c then s
  else
    let s := setRegf yardDie (R.canSt + 8 * c) 15 8 tec s
    log 0x0905 1 c tec (setCan c { getCan s c with bus := 2, held := yf s (R.canCfg + 8 * c) 29 29 == 1 } s)

/-- CAN_BUS_OFF_RECOVERED (R328). -/
def busBack (c : Nat) (s : State) : State :=
  let x := getCan s c
  if x.bus ≠ 2 || x.held then s else setErrors c 0 0 (setCan c { x with bus := 0 } s)

/-- CAN_ERR_PASSIVE (R328). -/
def errPassive (c tec rec : Nat) (s : State) : State :=
  if !netRuns s || !canOn s c || (getCan s c).bus = 1 then s
  else log 0x0906 1 c rec (setCan c { getCan s c with bus := 1 } (setErrors c tec rec s))

/-- CAN_RESTART (R328; 17, Table 17.4). -/
def restartBody (e : Entry) (s : State) : Rep × State :=
  let c := u8 e.payload 0
  if c > 1 then (rErr 4, s)
  else if (getCan s c).bus ≠ 2 then (rErr 0x0D, s)
  else (rOk [], setErrors c 0 0 (setCan c { getCan s c with bus := 0, held := false } s))

/-! CAN_MAP_LOAD (R336). -/

/-- The 256 words of a map page. -/
def mapWords (s : State) (p : Nat) : List Nat := words32 (readPage s p 0 1024) 256

/-- Reserved bits of a map entry's words (Table 11.8). -/
def mapReserved (ws : List Nat) : Bool :=
  (List.range 64).any fun i => ws.getD (4 * i + 1) 0 / 2 ^ 29 ≠ 0 || ws.getD (4 * i + 3) 0 / 256 % 256 ≠ 0

/-- The register file with a controller's map replaced. -/
def withMap (t : Table Word) (c : Nat) (ws : List Nat) : Table Word :=
  ((List.range 256).foldl (fun (t : Table Word) j =>
    let k := regKey yardDie (R.canMap + 256 * c + j)
    let v := BitVec.ofNat 32 (ws.getD j 0)
    if v = 0 then Table.drop t k else Table.ins (Table.drop t k) k v) t)

/-- A function that the map drives and that no map names any more lapses (R336). -/
def dropUnnamed (s : State) : State :=
  forAll ((s.fns.filter fun p => p.2.holder = .map && (mapOf s p.1).isNone).map (·.1)) releaseFn s

/-- The maps are in force from now on: running state begins anew, functions are requested and dropped (R332, R336). -/
def restartMap (c : Nat) (s : State) : State :=
  let fresh := (List.range 64).foldl (fun (t : Table MapEntry) i =>
    if mapValid s c i then Table.put MapEntry.init t i { MapEntry.init with seen := s.now, sentAt := s.now } else t) []
  mapTake (dropUnnamed (setCan c { getCan s c with map := fresh } s))

/-- CAN_MAP_LOAD (R336; 17, Table 17.4). The page takes the path of 12 R348. -/
def mapLoadBody (n : Nat) (e : Entry) (s : State) : Rep × State :=
  let c := u8 e.payload 0
  let p := u8 e.payload 1
  if c > 1 || !bulkPage p then (rErr 4, s)
  else if !holds s n p then (rErr 6, s)
  else
    let ws := mapWords s p
    let s := returnPages n [p] (pagesToDevice n [p] s)
    let t := withMap s.regs c ws
    if mapReserved ws then (rErr 3, s)
    else if badNet t then (rErr 0x0B, s)
    else (rOk [], restartMap c { s with regs := t })

end Sys2Proof.Machine
end

