-- ==== Sys2Proof/Machine/SerialOps.lean ====
section
/-! DEFINITION. The commands of the SPI controller ports and the execute-in-place window (12; 17, Table 17.4). -/

namespace Sys2Proof.Machine

open Sys2Proof

/-! BIND (Table 12.4). -/

def bindPort (e : Entry) : Nat := u8 e.payload 0 % 4
def bindSel (e : Entry) : Nat := u8 e.payload 0 / 4 % 8

/-- Bits 7:5 of BIND are zero. -/
def bindOk (p : List Byte) : Bool := u8 p 0 < 32

/-- Binding `(p, q)` is in a transfer, a held frame or a copy (R358). -/
def bindBusy (s : State) (p q : Nat) : Bool :=
  let y := getSpim s p
  (y.xfer.map fun x => x.select == q).getD false || (y.frame.map fun f => f.2.1 == q).getD false
  || (p == 0 && s.xip.copy.isSome && yf s R.xipCfg 30 28 == q)

/-- Reserved fields of SPIM_CONFIG, FMT among them (Table 12.12). -/
def configOk (p : List Byte) : Bool := bindOk p && zeroAt 1 3 p && u32 p 8 &&& 0x0010003F = 0

/-- A register file with one register changed. -/
def withReg (t : Table Word) (n v : Nat) : Table Word := Table.put (regInit n) t (regKey yardDie n) (BitVec.ofNat 32 v)

/-- SPIM_CONFIG (R358, Table 12.10). -/
def spimConfigBody (n : Nat) (e : Entry) (s : State) : Rep × State :=
  let p := bindPort e
  let q := bindSel e
  if q ≥ 4 && (getSess s n).priv.rank < 2 then (rErr 5, s)
  else if p = 3 then (rErr 4, s)
  else if bindBusy s p q then (rErr 0x0C, s)
  else
    let t := withReg (withReg s.regs (timReg p q) (u32 e.payload 4)) (fmtReg p q) (u32 e.payload 8)
    if badSerial t then (rErr 0x0B, s) else (rOk [], { s with regs := t })

/-! Transfers (R346 to R349). -/

/-- Bytes of a word of the binding that a payload names. -/
def payloadWord (s : State) (p : List Byte) : Nat :=
  if u8 p 0 % 4 = 3 then 1 else wordBytes (bindFmt s (u8 p 0 % 4) (u8 p 0 / 4 % 8))

/-- LENGTH of SPIM_XFER: 4 + WORDS × B (R346). -/
def xferLen (s : State) (p : List Byte) : Nat := 4 + u8 p 2 * payloadWord s p

/-- HOLD of a transfer's FLAGS. -/
def holdFlag (e : Entry) : Bool := (u8 e.payload 1).testBit 0

/-- The checks of Table 12.6, in its order. `max` is the most words that fit, `bounds` a page bound exceeded, `page` a page. -/
def xferRefusal (s : State) (n : Nat) (e : Entry) (words max : Nat) (bounds : Bool) (page : Option Nat) : Option (Nat × Nat) :=
  let p := bindPort e
  let q := bindSel e
  let fmt := bindFmt s p q
  let y := getSpim s p
  if p = 3 || !fmtEn fmt || words = 0 || words > max || bounds then some (4, 0)
  else if (getSess s n).priv.rank < fmtUse fmt then some (5, 0)
  else if holdFlag e && q < 4 then some (4, 0)
  else if (page.map fun g => !holds s n g).getD false then some (6, 0)
  else if y.xfer.isSome || (y.frame.map fun f => f.1 ≠ n || f.2.1 ≠ q).getD false then some (0x0C, 0)
  else if holdFlag e && p = 0 && s.xip.copy.isSome then some (0x0C, 0)
  else if s.power.entry.isSome then some (0x0E, 5)
  else none

/-- An accepted transfer begins (R342, R345, R349). -/
def beginXfer (n : Nat) (e : Entry) (out miso : List Word) (page : Option (Nat × Nat)) (s : State) : State :=
  let p := bindPort e
  let q := bindSel e
  let y := getSpim s p
  let tim := bindTim s p q
  let x : Xfer :=
    { sess := n, entry := e.id, select := q, hold := holdFlag e, words := out, miso := miso, page := page
      start := if y.frame.isSome then s.now else xferStart s p tim, lead := y.frame.isNone, tim := tim, fmt := bindFmt s p q }
  setSpim p { y with xfer := some x } s

/-- Words packed in bytes, `b` bytes each. -/
def packed (b words : Nat) (p : List Byte) : List Word := (List.range words).map fun i => BitVec.ofNat 32 (ofLe (slice p (b * i) b))

/-- SPIM_XFER (R346). `miso` is what the target returns. -/
def xferBody (n : Nat) (miso : List Word) (e : Entry) (s : State) : Rep × State :=
  let b := payloadWord s e.payload
  let w := u8 e.payload 2
  match xferRefusal s n e w (52 / b) false none with
  | some r => (rErrD r.1 r.2, s)
  | none => (.later, beginXfer n e (packed b w (e.payload.drop 4)) miso none s)

/-- SPIM_XFER_PAGE (R348). -/
def xferPageBody (n : Nat) (miso : List Word) (e : Entry) (s : State) : Rep × State :=
  let b := payloadWord s e.payload
  let g := u8 e.payload 2
  let o := u16 e.payload 4
  let w := u16 e.payload 6
  match xferRefusal s n e w (4096 / b) (o + w * b > 4096) (some g) with
  | some r => (rErrD r.1 r.2, s)
  | none =>
    let out := packed b w (readPage s g o (w * b))
    (.later, beginXfer n e out miso (some (g, o)) (pagesToDevice n [g] s))

/-- SPIM_RESET (R350, R357; 15, R424). -/
def spimResetBody (e : Entry) (s : State) : Rep × State :=
  let p := u8 e.payload 0
  if p > 2 then (rErr 4, s)
  else
    let b : ShadowBlock := .spim (Fin.ofNat 3 p)
    (rOk [], resumeShadow (fun x => x == b) (resetSpim p 0 false (startShadow b 0 s)))

/-- SPIM_STATUS (Table 12.14). -/
def spimStatusBody (e : Entry) (s : State) : Rep × State :=
  if u8 e.payload 0 > 2 then (rErr 4, s) else (rOk (le 4 (spimSt s (u8 e.payload 0)).toNat), s)

/-! The window. -/

/-- XIP_CONFIG (R353, R358). -/
def xipConfigBody (e : Entry) (s : State) : Rep × State :=
  let t := withReg s.regs R.xipCfg (u32 e.payload 0)
  if s.xip.copy.isSome then (rErr 0x0C, s)
  else if badSerial t then (rErr 0x0B, s)
  else (rOk [], emptyLines { s with regs := t })

/-- SPIM_XIP_COPY (R354). `flash` is what the flash holds from the window offset on. -/
def xipCopyBody (n : Nat) (flash : List Byte) (e : Entry) (s : State) : Rep × State :=
  let p := e.payload
  let woff := u32 p 0
  let g := u8 p 4
  let poff := u16 p 6
  let c := u16 p 8
  if yf s R.xipCfg 31 31 = 0 then (rErr 0x0D, s)
  else if c = 0 || c > 4096 || poff + c > 4096 || woff + c > 0x1000000 then (rErr 4, s)
  else if !holds s n g then (rErr 6, s)
  else if (getSpim s 0).frame.isSome || s.xip.copy.isSome then (rErr 0x0C, s)
  else
    let x : Copy := { sess := n, entry := e.id, page := g, poff := poff, woff := woff, data := padTo c flash, start := s.now }
    let s := pagesToDevice n [g] s
    (.later, { s with xip := { s.xip with copy := some x } })

end Sys2Proof.Machine
end

