-- ==== Sys2Proof/Machine/PkOps.lean ====
section
/-! DEFINITION. The lane cycles of Table 13.2 on the state, the events, and the Paddock commands (13; 17, Table 17.4). -/

namespace Sys2Proof.Machine

open Sys2Proof

/-! One lane cycle of each instruction. `pins` are the levels that the board gives the PK pins (R361). -/

def stepBr (g : Nat) (pins : BitVec 24) (s : State) : State :=
  laneStep 0x1 g (fun w x => laneBr (laneW s g) (laneLsb s g) w (fun j => lanePin s g j pins) x) s

def stepHold (g : Nat) (pins : BitVec 24) (s : State) : State :=
  laneStep 0x2 g (fun w x => laneHold w (fun j => lanePin s g j pins) x) s

def stepSho (g : Nat) (s : State) : State := laneStep 0x3 g (laneSho (laneLsb s g)) s

def stepShi (g : Nat) (pins : BitVec 24) (s : State) : State :=
  laneStep 0x4 g (fun w x => laneShi (laneLsb s g) w (lanePins s g pins) x) s

def stepLd (g : Nat) (pins : BitVec 24) (s : State) : State :=
  laneStep 0x7 g (fun w x => laneLd (laneW s g) w (lanePins s g pins) x) s

def stepTake (g : Nat) (s : State) : State := laneStep 0x9 g (laneTake (laneW s g)) s

/-- PADDOCK_EVENT_ACCEPT (R369). -/
def acceptEvent (ev : Nat) (s : State) : State :=
  if !s.power.fw || !s.pk.raised.toNat.testBit ev then s
  else
    let s := { s with pk := { s.pk with raised := BitVec.ofNat 64 (clrBit s.pk.raised.toNat ev) } }
    let s := setRegf yardDie (R.pkEvtLo + ev / 32) (ev % 32) (ev % 32) 1 s
    if (pkTrgEn s).testBit ev then raiseTrigger ev (controlMark s) s else s

/-! Loads (Table 13.7). -/

/-- Whether a page and an engine may be named, in the order of Table 13.7. -/
def pkNamed (s : State) (n : Nat) (e : Entry) : Option Nat :=
  let g := u8 e.payload 1
  if !holds s n g then some 6 else if u8 e.payload 0 > 1 || !bulkPage g then some 4 else none

/-- Bytes of the program in a page. -/
def pkImage (s : State) (g : Nat) : List Byte := readPage s g 0 2176

/-- PK_LOAD (R373). -/
def pkLoadBody (n : Nat) (e : Entry) (s : State) : Rep × State :=
  let k := u8 e.payload 0
  let g := u8 e.payload 1
  match pkNamed s n e with
  | some c => (rErr c, s)
  | none =>
    if (lanesOf k).any fun l => decide ((getLane s l).st ≠ .stopped) then (rErr 0x0D, s)
    else
      let p := pkImage s g
      let s := returnPages n [g] (pagesToDevice n [g] s)
      match pkCheck p, pageBad s g with
      | some c, _ => (rErr c, s)
      | none, true => (rErr 0x0F, s)
      | none, false => let s := loadPk k p s; (rOk [], logX 0x0701 0 0 n k (getPk s k).tag.toNat 0 s)

/-- PK_STORE (R377; 16, R435). -/
def pkStoreBody (n : Nat) (e : Entry) (s : State) : Rep × State :=
  let k := u8 e.payload 0
  let g := u8 e.payload 1
  match pkNamed s n e with
  | some c => (rErr c, s)
  | none =>
    if !nvOpen s then (rErrD 0x0E 4, s)
    else
      let p := pkImage s g
      match pkCheck p, pageBad s g with
      | some c, _ => (rErr c, returnPages n [g] (pagesToDevice n [g] s))
      | none, true => (rErr 0x0F, returnPages n [g] (pagesToDevice n [g] s))
      | none, false => (.later, queueWrite (nvWrite (N.pk k) (p.take (128 + 4 * pkLength p)) n e [] [g] []) (pagesToDevice n [g] s))

/-! Pin map (R378). -/

/-- Reserved bits of the twelve words of PK_PIN_CONFIG. -/
def pinsOk (p : List Byte) : Bool := (List.range 24).all fun i => u8 p (2 * i) % 32 == 0

/-- The entry's lane runs or stalls, when the entry maps its pin. -/
def pinRuns (s : State) (w : Nat) : Bool := pinEn w && decide ((getLane s (pinLane w)).st ≠ .stopped)

/-- PK_PIN_CONFIG (R378, Table 13.12). -/
def pinConfigBody (e : Entry) (s : State) : Rep × State :=
  let new := fun (i : Nat) => u16 e.payload (2 * i)
  let changed := (List.range 24).filter fun i => new i ≠ pinEntry s i
  let t := (List.range 12).foldl (fun t w => withReg t (R.pkPinmap + w) (u32 e.payload (4 * w))) s.regs
  if changed.any fun i => pinRuns s (new i) || pinRuns s (pinEntry s i) then (rErr 0x0C, s)
  else if badPins t then (rErr 0x0B, s)
  else (rOk [], { s with regs := t })

/-! Lanes. -/

/-- The session is below the USE of one of these lanes (Table 13.4). -/
def belowUse (s : State) (n : Nat) (gs : List Nat) : Bool :=
  gs.any fun g => (getSess s n).priv.rank < entryUse (laneEntry s g)

/-- The lanes that ENGINE and LANES name. -/
def namedLanes (e : Entry) : List Nat := ((List.range 8).filter fun l => (u8 e.payload 1).testBit l).map (8 * u8 e.payload 0 + ·)

/-- PK_START and PK_STOP: the named lanes change together (R372, R374). -/
def lanesBody (f : List Nat → State → State) (n : Nat) (e : Entry) (s : State) : Rep × State :=
  let gs := namedLanes e
  if u8 e.payload 0 > 1 then (rErr 4, s)
  else if gs.any fun g => !laneDefined s g then (rErr 0x0D, s)
  else if belowUse s n gs then (rErr 5, s)
  else (rOk [], f gs s)

/-- PK_RESET (R375; 15, R424). -/
def pkResetBody (n : Nat) (e : Entry) (s : State) : Rep × State :=
  let k := u8 e.payload 0
  if k > 1 then (rErr 4, s)
  else if belowUse s n ((lanesOf k).filter (laneDefined s)) then (rErr 5, s)
  else
    let b : ShadowBlock := .paddock (Fin.ofNat 2 k)
    (rOk [], resumeShadow (fun x => x == b) (resetPk k (startShadow b 0 s)))

/-- The checks of a command on one lane: its number, that it is defined, its USE. -/
def laneRefusal (s : State) (n g : Nat) : Option Nat :=
  if g > 15 then some 4 else if !laneDefined s g then some 0x0D else if belowUse s n [g] then some 5 else none

/-- PK_PUSH (R371). -/
def pushBody (n : Nat) (e : Entry) (s : State) : Rep × State :=
  let g := u8 e.payload 0
  let c := u8 e.payload 1
  if c = 0 || c > 12 then (rErr 4, s)
  else
    match laneRefusal s n g with
    | some r => (rErr r, s)
    | none =>
      let x := getLane s g
      if x.txq.length + c > 256 then (rErr 0x0C, s)
      else
        let q := x.txq ++ packed 4 c (e.payload.drop 4)
        (rOk (le 2 q.length ++ zeros 2), setLane g { x with txq := q } s)

/-- PK_PULL (R371). -/
def pullBody (n : Nat) (e : Entry) (s : State) : Rep × State :=
  let g := u8 e.payload 0
  let m := u8 e.payload 1
  if m = 0 || m > 12 then (rErr 4, s)
  else
    match laneRefusal s n g with
    | some r => (rErr r, s)
    | none =>
      let x := getLane s g
      let out := x.rxq.take m
      (rOk (le 1 out.length ++ zeros 3 ++ out.flatMap fun w => le 4 w.toNat), setLane g { x with rxq := x.rxq.drop m } s)

/-- PK_STATUS (Tables 13.10, 13.11). -/
def pkStatusBody (e : Entry) (s : State) : Rep × State :=
  let g := u8 e.payload 0
  if g > 15 then (rErr 4, s)
  else if !laneDefined s g then (rErr 0x0D, s)
  else
    let x := getLane s g
    (rOk (le 4 (pkLaneSt s g).toNat ++ le 4 (pkLaneCnt s g).toNat ++ le 4 (pkEngSt s (g / 8)).toNat
      ++ le 4 (reg s yardDie R.pkEvtLo).toNat ++ le 4 (reg s yardDie R.pkEvtHi).toNat
      ++ le 2 x.ca.toNat ++ le 2 x.cb.toNat ++ le 4 x.sh.toNat), s)

end Sys2Proof.Machine
end

