-- ==== Sys2Proof/Machine/MgmtOps.lean ====
section
/-! DEFINITION. Firmware installs, configuration registers, identity, keys and resets by command (16; 02, R73 to R78; 17, R455 and
Table 17.5). -/

namespace Sys2Proof.Machine

open Sys2Proof

/-! Firmware (R440 to R445). -/

/-- Slot state, SVN, version and activation count as FW_STATUS lists them (17, Table 17.5). -/
def slotStatus (s : State) (i : Nat) : List Byte :=
  let f := slotOf s i
  le 1 (slotState s i) ++ zeros 1 ++ le 2 (imageSvn f) ++ le 4 (imageVersion f) ++ le 4 f.activated

/-- FW_STATUS (17, Table 17.5). -/
def fwStatusBody (_ : Entry) (s : State) : Rep × State :=
  (rOk (le 1 s.store.active ++ zeros 3 ++ slotStatus s 0 ++ slotStatus s 1), s)

/-- DETAIL of the mode error of FW_INSTALL_BEGIN (R441). -/
def beginRefusal (s : State) : Option Nat :=
  if s.power.mode = .update then some 1
  else if inCold s then some 2
  else if s.power.fail.isSome then some 3
  else if !nvOpen s then some 4
  else if s.power.entry.isSome then some 5
  else none

/-- FW_INSTALL_BEGIN (R441; 02, R59). -/
def installBeginBody (n : Nat) (e : Entry) (s : State) : Rep × State :=
  match beginRefusal s with
  | some d => (rErrD 0x0E d, s)
  | none =>
    if (getDet s 0x19).raised then (rErr 0x0D, s)
    else
      let v := u32 e.payload 0
      let i := inactive s
      let s := setSlot i { slotOf s i with installed := none, activated := 0, bad := false, shipped := false } s
      let s := { s with store := { s.store with install := some { sess := n, version := v, blocks := [], finish := false } } }
      let s := log 0x0A01 0 v 0 { s with power := { s.power with mode := .update } }
      (rOk (le 1 i ++ zeros 3), hostEvent 5 1 0 s)

/-- The install that session `n` has begun, in Update. -/
def ownInstall (s : State) (n : Nat) : Option Install := s.store.install.filter fun i => i.sess == n

/-- FW_INSTALL_WRITE (R442). Every word group verifies (log entry 26). -/
def installWriteBody (n : Nat) (e : Entry) (s : State) : Rep × State :=
  let g := u8 e.payload 0
  let b := u16 e.payload 2
  match ownInstall s n with
  | none => (rErr 0x0D, s)
  | some x =>
    if b > 510 || !bulkPage g then (rErr 4, s)
    else if !holds s n g then (rErr 6, s)
    else
      let i := inactive s
      let f := slotOf s i
      let s := pagesToDevice n [g] s
      let s := setSlot i { f with image := Table.putAll 0 f.image (4096 * b) (readPage s g 0 4096) } s
      let s := { s with store := { s.store with install := some { x with blocks := x.blocks.filter (· ≠ b) ++ [b] } } }
      (rOk [], returnPages n [g] s)

/-- The first condition of R443 that the install does not meet, by its DETAIL. -/
def finishFault (s : State) (x : Install) : Option Nat :=
  let f := slotOf s (inactive s)
  if !x.blocks.contains 0 then some 1
  else if !headOk (imageHead f) then some 2
  else if (List.range ((256 + imageLength f + 4095) / 4096)).any fun b => !x.blocks.contains b then some 1
  else
    match imageFault s f with
    | some d => some d
    | none => if imageVersion f = x.version then none else some 7

/-- FW_INSTALL_FINISH (R443; 15, R418). -/
def installFinishBody (n : Nat) (_ : Entry) (s : State) : Rep × State :=
  match ownInstall s n with
  | none => (rErr 0x0D, s)
  | some x =>
    let s := { s with store := { s.store with install := some { x with finish := true } } }
    if !cryptoUp s then (rErr 0x0D, s)
    else
      match finishFault s x with
      | some d => (rErrD 0x0F d, s)
      | none =>
        let i := inactive s
        let count := (slotOf s s.store.active).installed.getD 0
        let s := setSlot i { slotOf s i with installed := some (seqNext count), bad := false } s
        let s := { s with store := { s.store with install := none }, power := { s.power with mode := .run } }
        (rOk (le 1 i ++ zeros 3), hostEvent 5 0 1 (log 0x0A02 0 x.version i s))

/-- FW_INSTALL_ABORT (R444). -/
def installAbortBody (n : Nat) (_ : Entry) (s : State) : Rep × State :=
  match ownInstall s n with
  | none => (rErr 0x0D, s)
  | some _ => (rOk [], abandonInstall s)

/-- FW_ACTIVATE (R445; 02, R76). The ACTIVATED word is one word group. -/
def activateBody (e : Entry) (s : State) : Rep × State :=
  let i := u8 e.payload 0
  if i > 1 then (rErr 4, s)
  else if s.power.mode = .update || slotState s i ≠ 2 then (rErr 0x0D, s)
  else if !nvOpen s then (rErrD 0x0E 4, s)
  else
    let count := (slotOf s s.store.active).activated
    (.later, warmReset 2 0 (setSlot i { slotOf s i with activated := (count + 1) % 2 ^ 32 } s))

/-! Keys (R447 to R449). -/

/-- The key store as the writes accepted so far leave it (R437). -/
def keyBase (s : State) : List Byte :=
  (((s.store.queue.filter fun w => w.item == N.keys).getLast?).map (·.body)).getD (keyBody s)

/-- A write of the key store (R435, R437). -/
def writeKeys (n : Nat) (e : Entry) (body reply : List Byte) (logs : List (Nat × Nat × Nat)) (s : State) : Rep × State :=
  (.later, queueWrite (nvWrite N.keys body n e reply [] logs) s)

/-- FW_SVN_RAISE (R449). -/
def svnRaiseBody (n : Nat) (e : Entry) (s : State) : Rep × State :=
  let v := imageSvn (slotOf s s.store.active)
  if !nvOpen s then (rErrD 0x0E 4, s)
  else if v < u16 (keyBase s) 2 then (rErr 0x0D, s)
  else writeKeys n e (patch 2 (le 2 v) (keyBase s)) (le 2 v ++ zeros 2) [] s

/-- KEY_NONCE (R448, Table 16.10; 15, R418). -/
def keyNonceBody (n : Nat) (_ : Entry) (s : State) : Rep × State :=
  if (getDet s 0x19).raised then (rErr 0x0D, s)
  else
    let r := randomBytes s
    let v : Nonce := { bytes := r.1, level := 0, at_ := s.now, key := ownKey s }
    (rOk r.1, updSess n (fun x => { x with keyNonce := some v }) r.2)

/-- Key of level `lv` with its flag, in the key store. -/
def withKey (lv : Nat) (key body : List Byte) : List Byte :=
  patch 0 (le 1 (setBit (u8 body 0) (lv - 1))) (patch (32 * lv) key body)

/-- A new key K of level `lv`: CHECK, then K, then the write (R448). -/
def takeKey (n lv : Nat) (key : List Byte) (e : Entry) (s : State) : Rep × State :=
  if !cryptoUp s then (rErr 0x0D, s)
  else if (hmac key (uidBytes s ++ le 1 lv)).take 16 ≠ slice e.payload 36 16 then (rErr 9, noteAuthFail n 2 s)
  else if key.all (· == 0) then (rErr 0x0B, s)
  else writeKeys n e (withKey lv key (keyBase s)) [] [(0x0A05, lv, 0)] s

/-- KEY_SET, form CLEAR. -/
def keyClear (n lv : Nat) (e : Entry) (s : State) : Rep × State :=
  if n ≠ 0 then (rErr 5, s)
  else if (u8 (keyBase s) 0).testBit 1 then (rErr 0x0D, s)
  else takeKey n lv (slice e.payload 4 32) e s

/-- KEY_SET, form WRAPPED: it consumes the nonce. -/
def keyWrapped (n lv : Nat) (e : Entry) (s : State) : Rep × State :=
  if (getSess s n).priv.rank < 2 then (rErr 5, s)
  else
    match liveNonce s (getSess s n).keyNonce 0 with
    | none => (rErr 0x0D, s)
    | some v =>
      let s := updSess n (fun x => { x with keyNonce := none }) s
      if v.bytes.isEmpty then (rErr 0x0D, s)
      else
        let pad := hmac (ownKey s) (v.bytes ++ uidBytes s ++ le 1 lv)
        takeKey n lv (List.zipWith (· ^^^ ·) (slice e.payload 4 32) pad) e s

/-- KEY_SET, form ERASE. -/
def keyErase (n lv : Nat) (e : Entry) (s : State) : Rep × State :=
  if (getSess s n).priv.rank < 2 then (rErr 5, s)
  else if lv ≠ 1 || !zeroAt 4 48 e.payload then (rErr 4, s)
  else
    let b := keyBase s
    writeKeys n e (patch 0 (le 1 (clrBit (u8 b 0) 0)) (patch 32 (zeros 32) b)) [] [] s

/-- KEY_SET (R448). -/
def keySetBody (n : Nat) (e : Entry) (s : State) : Rep × State :=
  let lv := u8 e.payload 0
  let form := u8 e.payload 1
  if (lv ≠ 1 && lv ≠ 2) || form > 2 then (rErr 4, s)
  else if !nvOpen s then (rErrD 0x0E 4, s)
  else if form = 0 then keyClear n lv e s
  else if form = 1 then keyWrapped n lv e s
  else keyErase n lv e s

/-- KEY_STATUS (R447). -/
def keyStatusBody (_ : Entry) (s : State) : Rep × State := (rOk (le 1 (keyFlags s) ++ zeros 1 ++ le 2 (minSvn s)), s)

/-! Identity (R446). -/

/-- The record's body; without a valid record what the fuses give of it, revisions and trims zero (R446; log entry 10). -/
def identityBody (s : State) : List Byte :=
  if (identity s).isEmpty then padTo 448 (uidBytes s ++ le 1 s.variant.code ++ zeros 1 ++ macBytes s)
  else padTo 448 (identity s)

/-- ID_READ (R446; 12, R348). -/
def idReadBody (n : Nat) (e : Entry) (s : State) : Rep × State :=
  let g := u8 e.payload 0
  if !bulkPage g then (rErr 4, s)
  else if !holds s n g then (rErr 6, s)
  else (rOk [], fillHeld n g 0 (identityBody s) s)

/-! Configuration registers (17, R455). -/

/-- The value that a register shows: what it stores, or what it reports. -/
def readReg (s : State) (die n : Nat) : Word :=
  if n < 0x1000 then
    if R.spimSt ≤ n && n < R.spimSt + 3 then spimSt s (n - R.spimSt)
    else if R.pkLaneSt ≤ n && n < R.pkLaneSt + 16 then pkLaneSt s (n - R.pkLaneSt)
    else if R.pkLaneCnt ≤ n && n < R.pkLaneCnt + 16 then pkLaneCnt s (n - R.pkLaneCnt)
    else if R.pkEngSt ≤ n && n < R.pkEngSt + 2 then pkEngSt s (n - R.pkEngSt)
    else reg s die n
  else if R.peSt ≤ n && n < R.peSt + 16 then peSt (getEngine (getShed s die) (n - R.peSt))
  else reg s die n

/-- The run of registers that REG and COUNT name. -/
def regRun (e : Entry) : List Nat := (List.range (u8 e.payload 3)).map (u16 e.payload 0 + ·)

/-- The run is refused: COUNT, a number not listed, or a kind that SHED does not name. -/
def runBad (s : State) (max : Nat) (e : Entry) : Bool :=
  let sh := u8 e.payload 2
  u8 e.payload 3 = 0 || u8 e.payload 3 > max || (regRun e).any fun n =>
    (regRow n).isNone || (if n < 0x1000 then sh ≠ yardDie else !isPresent s sh)

/-- CFG_READ (R455). -/
def cfgReadBody (e : Entry) (s : State) : Rep × State :=
  if runBad s 14 e then (rErr 4, s)
  else (rOk ((regRun e).flatMap fun n => le 4 (readReg s (u8 e.payload 2) n).toNat), s)

/-- What the Write column answers to a session of rank `r` (R455). -/
def writeRefusal (r n : Nat) : Option Nat :=
  match regRow n with
  | none => some 4
  | some w =>
    match w.write with
    | .ro | .command => some 4
    | .operator => if r < 1 then some 5 else none
    | .owner => if r < 2 then some 5 else none

/-- The registers and values of a CFG_WRITE. -/
def cfgValues (e : Entry) : List (Nat × Word) :=
  (regRun e).zipIdx.map fun p => (p.1, BitVec.ofNat 32 (u32 e.payload (4 + 4 * p.2)))

/-- Status that a 1 clears and that does not stand in the register file: STALE of a lane (13, Table 13.10), SPAN_CLIP of an engine
(06, Table 6.12). -/
def clearStatus (die : Nat) (p : Nat × Word) (s : State) : State :=
  if R.pkLaneSt ≤ p.1 && p.1 < R.pkLaneSt + 16 && p.2.bit 8 then
    setLane (p.1 - R.pkLaneSt) { getLane s (p.1 - R.pkLaneSt) with stale := false } s
  else if R.peSt ≤ p.1 && p.1 < R.peSt + 16 && p.2.bit 7 then
    updShed die (fun d =>
      let i := p.1 - R.peSt
      { d with engines := Table.put Engine.init d.engines i { getEngine d i with clip := false } }) s
  else s

/-- A CAN FD controller that is enabled starts error-active, its trigger entries without a last value (11, R328, R334). -/
def canEnable (old s : State) : State :=
  forAll [0, 1] (fun c s =>
    if yf old (R.canCfg + 8 * c) 31 31 = 0 && yf s (R.canCfg + 8 * c) 31 31 = 1 then
      let x := getCan s c
      setCan c { x with bus := 0, map := (List.range 64).foldl (fun t i =>
        Table.put MapEntry.init t i { Table.get MapEntry.init t i with trig := none }) x.map } s
    else s) s

/-- The words of configuration that changed go to the sheds (03, R114; 07, R218). Band and thermal registers act at the next round
(09, R275). -/
def sendConfig (old s : State) : State :=
  forAll (present s) (fun k s =>
    let die := fun (n : Nat) => if n < 0x1000 then yardDie else k
    let ns := shedCopies.filter fun n => n ≠ R.frameCfg && decide (reg old (die n) n ≠ reg s (die n) n)
    if ns.isEmpty then s else sendWrites k (ns.map fun n => (A.cfg + n, regWord (effReg s k n))) s) s

/-- What follows a write of configuration registers, by the owning chapters. -/
def cfgApplied (old s : State) : State :=
  let s := if reg old yardDie R.xipBank = reg s yardDie R.xipBank then s else emptyLines s
  let s := canEnable old s
  let s := if reg old yardDie R.frameCfg = reg s yardDie R.frameCfg then s else applyBand s
  sendConfig old s

/-- CFG_WRITE (R455). -/
def cfgWriteBody (n : Nat) (e : Entry) (s : State) : Rep × State :=
  let die := u8 e.payload 2
  let vs := cfgValues e
  if runBad s 13 e then (rErr 4, s)
  else
    match (regRun e).findSome? (writeRefusal (getSess s n).priv.rank) with
    | some c => (rErr c, s)
    | none =>
      if vs.any valueRsvd then (rErr 3, s)
      else if s.xip.copy.isSome && (regRun e).contains R.xipBank then (rErr 0x0C, s)
      else
        let s1 := forAll vs (fun p s => clearStatus die p (writeReg die p.1 p.2 s)) s
        if badConfig (nSheds s) s1.regs then (rErr 0x0B, s) else (rOk [], cfgApplied s s1)

/-- Registers that a register block saves: those with an RW field. -/
def savedNumbers (l : List Nat) : List Nat := l.filter fun n => match regRow n with | some r => r.rw ≠ 0 | none => false

/-- One entry of a register block (17, R456). -/
def blockEntry (s : State) (die n : Nat) : List Byte := le 2 n ++ le 1 die ++ zeros 1 ++ le 4 (reg s die n).toNat

/-- The register block of the applied configuration (R438). -/
def registerBlock (s : State) : List Byte :=
  (savedNumbers yardNumbers).flatMap (blockEntry s yardDie)
  ++ (present s).flatMap fun k => (savedNumbers shedNumbers).flatMap (blockEntry s k)

/-- CFG_SAVE (R438). -/
def cfgSaveBody (n : Nat) (e : Entry) (s : State) : Rep × State :=
  if !nvOpen s then (rErrD 0x0E 4, s) else (.later, queueWrite (nvWrite N.regs (registerBlock s) n e [] [] []) s)

/-! Resets by command (02, R73 to R78; 17, Table 17.5). -/

/-- WARM_RESET (02, R76). -/
def warmResetBody (_ : Entry) (s : State) : Rep × State := (.later, warmReset 2 0 s)

/-- A shed is resetting or resynchronising. -/
def resettingShed (s : State) (k : Nat) : Bool :=
  let d := getShed s k
  decide (d.mode = .resetting) || d.resync || !(getLink s k).trained

/-- SHED_RESET (02, R78). -/
def shedResetBody (e : Entry) (s : State) : Rep × State :=
  let k := u8 e.payload 0
  if !isPresent s k then (rErr 4, s)
  else if resettingShed s k then (rErr 0x10, s)
  else (rOk [], shedReset k 0 s)

/-- PORT_RESET (02, R73; 10, R309; 11, R319, R328; 17, Table 17.5). -/
def portResetBody (e : Entry) (s : State) : Rep × State :=
  match u8 e.payload 0 with
  | 0 => (rOk [], resetSpit s)
  | 1 => (rOk [], resetEth 0 0 s)
  | 2 => (rOk [], resetEth 1 0 s)
  | 3 => (rOk [], resetCan 0 s)
  | 4 => (rOk [], resetCan 1 s)
  | _ => (rErr 4, s)

end Sys2Proof.Machine
end

