-- ==== Sys2Proof/Machine/FaultActs.lean ====
section
/-! DEFINITION. The commands and reports of the fault collector (15, R409 to R432; 17, Table 17.5). -/

namespace Sys2Proof.Machine

open Sys2Proof

/-- FAULT_STATUS (17, Table 17.5). -/
def faultStatusBody (e : Entry) (s : State) : Rep × State :=
  let d := u8 e.payload 0
  let c := u8 e.payload 1
  if c = 0 || c > 13 || d + c > 32 then (rErr 4, s)
  else (rOk (le 4 (faultSum s) ++ (List.range c).flatMap fun i => le 4 (faultSt s (d + i))), s)

/-- Least privilege to clear a class (Table 15.1). -/
def clearRank (cls : Nat) : Nat := if cls ≥ 2 then 2 else 1

/-- The dies of a mask in which a detector is raised; mask 0 means every die (R427). -/
def clearDies (s : State) (det mask : Nat) : List Nat :=
  (List.range 8).filter fun i => (getDet s det).dies.toNat.testBit i && (mask == 0 || mask.testBit i)

/-- FAULT_CLEAR (R427). -/
def faultClearBody (n : Nat) (e : Entry) (s : State) : Rep × State :=
  let det := u8 e.payload 0
  let mask := u8 e.payload 1
  let dies := clearDies s det mask
  let inc := (getDet s det).inc
  if det > 31 || mask / 2 ^ (nSheds s + 1) ≠ 0 then (rErr 4, s)
  else if (getSess s n).priv.rank < clearRank (effClass s det) then (rErr 5, s)
  else if dies.isEmpty then (rErr 0x0D, s)
  else
    match dies.findSome? (clearReason s det) with
    | some r => (rErrD 0x13 r, logX 0x0B03 1 0 n det r inc s)
    | none => (rOk (le 2 inc ++ zeros 2), logX 0x0B02 0 0 n det 0 inc (dropFault det dies s))

/-- DETAIL of the mode error outside Run (R432). -/
def runRefusal (s : State) : Option Nat :=
  if s.power.mode = .update then some 1 else if inCold s then some 2
  else if s.power.mode = .nightWatch || s.power.entry.isSome then some 5 else none

/-- FAULT_INJECT names an absent target, or code 6 with one bit (R432). -/
def injectBad (s : State) (chk bits shed target : Nat) : Bool :=
  chk > 6 || (bits ≠ 1 && bits ≠ 2) || (2 ≤ chk && chk ≤ 5 && !isPresent s shed) || (chk = 2 && target > 2047)
  || (chk = 3 && target > 15) || ((chk = 4 || chk = 5) && (target = 0 || target > 8)) || (chk = 6 && bits ≠ 2)

/-- An accepted injection acts or is armed (R431, Table 15.9). -/
def inject (i : Injection) (s : State) : State :=
  let armed := { s with faults := { s.faults with injection := some i } }
  match i.checker with
  | 1 => if i.bits = 1 then countEcc 1 1 s else raiseFault 0x01 0 { armed with faults := { armed.faults with mramBad := true } }
  | 2 | 3 => command i.shed (.inject i.checker i.bits i.target) armed
  | 6 => raiseFault 0x03 0 armed
  | _ => armed

/-- FAULT_INJECT (R431, R432). -/
def faultInjectBody (n : Nat) (e : Entry) (s : State) : Rep × State :=
  let chk := u8 e.payload 0
  let bits := u8 e.payload 1
  let shed := u8 e.payload 2
  let target := u16 e.payload 4
  match runRefusal s with
  | some d => (rErrD 0x0E d, s)
  | none =>
    if safeOn s || shutdownOn s then (rErr 0x0D, s)
    else if s.faults.injection.isSome then (rErr 0x0C, s)
    else if injectBad s chk bits shed target then (rErr 4, s)
    else
      let r := newIncident s
      let die := if 2 ≤ chk && chk ≤ 5 then shed + 1 else 0
      let i : Injection :=
        { checker := chk, bits := bits, shed := shed, target := target, inc := r.1, at_ := s.now
          left := if chk = 4 || chk = 5 then target else 1 }
      (rOk (le 2 r.1 ++ zeros 2), inject i (logX 0x0B05 0 die n chk bits r.1 r.2))

/-- What CLEAR of LINK_STATUS leaves of LINK_ST (17, Table 17.5). -/
def clearedLink (s : State) (k : Nat) : Word :=
  let fail := (getDet s 0x09).dies.toNat.testBit (k + 1) && (clearReason s 0x09 (k + 1)).isNone
  let w := (reg s k R.linkSt).withFld 31 10 0
  if fail then w.withFld 9 9 0 else w

/-- LINK_STATUS (01, Table 1.7; 17, Table 17.5). -/
def linkStatusBody (n : Nat) (e : Entry) (s : State) : Rep × State :=
  let k := u8 e.payload 0
  let clear := u8 e.payload 1 = 1
  if clear && (getSess s n).priv.rank < 1 then (rErr 5, s)
  else if !isPresent s k then (rErr 4, s)
  else (rOk (le 4 (reg s k R.linkSt).toNat), if clear then setReg k R.linkSt (clearedLink s k) s else s)

/-! Reports. -/

/-- The detector exists in the die (Table 15.2): 0 the yard, others a shed. -/
def detectsIn (det die : Nat) : Bool :=
  if [0x02, 0x10, 0x11, 0x16, 0x17].contains det then true
  else if (0x09 ≤ det && det ≤ 0x0F) || (0x12 ≤ det && det ≤ 0x14) || det = 0x18 then die ≠ 0
  else die = 0

/-- What a detector's condition leaves for its clear condition to find. -/
def noteCondition (det die : Nat) (s : State) : State :=
  match det with
  | 0x00 => { s with faults := { s.faults with sramBad := true } }
  | 0x01 => { s with faults := { s.faults with mramBad := true } }
  | 0x0D => updShed (die - 1) (fun d => { d with drive := { d.drive with checked := 0 } }) s
  | 0x10 => badReading die { s with therm := { s.therm with refBad := BitVec.ofNat 8 (setBit s.therm.refBad.toNat die) } }
  | 0x11 => badReading die s
  | _ => s

/-- A detector report reaches the collector (R415, R416), which serves from the release of the yard's reset. -/
def faultReport (det die : Nat) (s : State) : State :=
  if s.power.phase = .held || !detectsIn det die then s
  else if det = 0x16 then overtemp die s
  else raiseFault det die (noteCondition det die s)

/-- The memory, the die and the pass of a scrubber (R420). -/
def scrubPass (m : ScrubMem) (corrections : Nat) (bad : Option Nat) (s : State) : State :=
  match m with
  | .sram => scrub 0 0 corrections bad s
  | .mram => scrub 1 0 corrections bad s
  | .shed k => scrub 2 (k.val + 1) corrections bad s

/-- The die of a scrubbed memory. -/
def scrubDie (m : ScrubMem) : Nat := match m with | .shed k => k.val + 1 | .sram | .mram => 0

/-- The die of a shadowed block. -/
def shadowDie (b : ShadowBlock) : Nat := match b with | .shed k => k.val + 1 | .yard | .port _ | .spim _ | .paddock _ => 0

/-- The crypto engine's self-test completes (R418; Table 15.2, CRYPTO). -/
def selfTest (pass : Bool) (s : State) : State :=
  if pass then setCause 0x19 false { s with faults := { s.faults with crypto := true } }
  else raiseFault 0x19 0 { s with faults := { s.faults with crypto := false } }

end Sys2Proof.Machine
end

