-- ==== Sys2Proof/Machine/MgmtCmds.lean ====
section
/-! DEFINITION. The commands of management, resets and faults, and the reports of the collector (15 to 17). -/

namespace Sys2Proof.Machine

open Sys2Proof

/-- FW_STATUS (16, R440). -/
def execFwStatus (t : Nat) (n : Fin 16) (s : State) : Host.Outcome State Fault Refusal :=
  act t (runJhp n.val 0x0A01 (fixed 0) noRsvd 0 fwStatusBody) s

/-- FW_INSTALL_BEGIN (16, R441). -/
def execFwInstallBegin (t : Nat) (n : Fin 16) (s : State) : Host.Outcome State Fault Refusal :=
  act t (runJhp n.val 0x0A02 (fixed 4) noRsvd 2 (installBeginBody n.val)) s

/-- FW_INSTALL_WRITE (16, R442). -/
def execFwInstallWrite (t : Nat) (n : Fin 16) (s : State) : Host.Outcome State Fault Refusal :=
  act t (runJhp n.val 0x0A03 (fixed 4) (zeroAt 1 1) 2 (installWriteBody n.val)) s

/-- FW_INSTALL_FINISH (16, R443). -/
def execFwInstallFinish (t : Nat) (n : Fin 16) (s : State) : Host.Outcome State Fault Refusal :=
  act t (runJhp n.val 0x0A04 (fixed 0) noRsvd 2 (installFinishBody n.val)) s

/-- FW_INSTALL_ABORT (16, R444). -/
def execFwInstallAbort (t : Nat) (n : Fin 16) (s : State) : Host.Outcome State Fault Refusal :=
  act t (runJhp n.val 0x0A05 (fixed 0) noRsvd 2 (installAbortBody n.val)) s

/-- FW_ACTIVATE (16, R445). -/
def execFwActivate (t : Nat) (n : Fin 16) (s : State) : Host.Outcome State Fault Refusal :=
  act t (runJhp n.val 0x0A06 (fixed 4) (zeroAt 1 3) 2 activateBody) s

/-- FW_SVN_RAISE (16, R449). -/
def execFwSvnRaise (t : Nat) (n : Fin 16) (s : State) : Host.Outcome State Fault Refusal :=
  act t (runJhp n.val 0x0A07 (fixed 0) noRsvd 2 (svnRaiseBody n.val)) s

/-- CFG_READ (17, R455). -/
def execCfgRead (t : Nat) (n : Fin 16) (s : State) : Host.Outcome State Fault Refusal :=
  act t (runJhp n.val 0x0A10 (fixed 4) noRsvd 0 cfgReadBody) s

/-- CFG_WRITE (17, R455). -/
def execCfgWrite (t : Nat) (n : Fin 16) (s : State) : Host.Outcome State Fault Refusal :=
  act t (runJhp n.val 0x0A11 (fun p => 4 + 4 * u8 p 3) noRsvd 1 (cfgWriteBody n.val)) s

/-- CFG_SAVE (16, R438). -/
def execCfgSave (t : Nat) (n : Fin 16) (s : State) : Host.Outcome State Fault Refusal :=
  act t (runJhp n.val 0x0A12 (fixed 0) noRsvd 2 (cfgSaveBody n.val)) s

/-- ID_READ (16, R446). -/
def execIdRead (t : Nat) (n : Fin 16) (s : State) : Host.Outcome State Fault Refusal :=
  act t (runJhp n.val 0x0A20 (fixed 4) (zeroAt 1 3) 0 (idReadBody n.val)) s

/-- KEY_NONCE (16, R448). -/
def execKeyNonce (t : Nat) (n : Fin 16) (s : State) : Host.Outcome State Fault Refusal :=
  act t (runJhp n.val 0x0A21 (fixed 0) noRsvd 2 (keyNonceBody n.val)) s

/-- KEY_SET (16, R448). -/
def execKeySet (t : Nat) (n : Fin 16) (s : State) : Host.Outcome State Fault Refusal :=
  act t (runJhp n.val 0x0A22 (fixed 52) (zeroAt 2 2) 0 (keySetBody n.val)) s

/-- KEY_STATUS (16, R447). -/
def execKeyStatus (t : Nat) (n : Fin 16) (s : State) : Host.Outcome State Fault Refusal :=
  act t (runJhp n.val 0x0A23 (fixed 0) noRsvd 0 keyStatusBody) s

/-- WARM_RESET (02, R76). -/
def execWarmReset (t : Nat) (n : Fin 16) (s : State) : Host.Outcome State Fault Refusal :=
  act t (runJhp n.val 0x0A30 (fixed 0) noRsvd 2 warmResetBody) s

/-- SHED_RESET (02, R78). -/
def execShedReset (t : Nat) (n : Fin 16) (s : State) : Host.Outcome State Fault Refusal :=
  act t (runJhp n.val 0x0A31 (fixed 4) (zeroAt 1 3) 2 shedResetBody) s

/-- PORT_RESET (02, R73; 17, Table 17.5). -/
def execPortReset (t : Nat) (n : Fin 16) (s : State) : Host.Outcome State Fault Refusal :=
  act t (runJhp n.val 0x0A32 (fixed 4) (zeroAt 1 3) 2 portResetBody) s

/-- FAULT_STATUS (15, R416). -/
def execFaultStatus (t : Nat) (n : Fin 16) (s : State) : Host.Outcome State Fault Refusal :=
  act t (runJhp n.val 0x0B01 (fixed 4) (zeroAt 2 2) 0 faultStatusBody) s

/-- FAULT_CLEAR (15, R427). -/
def execFaultClear (t : Nat) (n : Fin 16) (s : State) : Host.Outcome State Fault Refusal :=
  act t (runJhp n.val 0x0B02 (fixed 4) (zeroAt 2 2) 1 (faultClearBody n.val)) s

/-- FAULT_INJECT (15, R431). -/
def execFaultInject (t : Nat) (n : Fin 16) (s : State) : Host.Outcome State Fault Refusal :=
  act t (runJhp n.val 0x0B03 (fixed 8) (fun p => zeroAt 3 1 p && zeroAt 6 2 p) 2 (faultInjectBody n.val)) s

/-- LINK_STATUS (17, Table 17.5). -/
def execLinkStatus (t : Nat) (n : Fin 16) (s : State) : Host.Outcome State Fault Refusal :=
  act t (runJhp n.val 0x0B04 (fixed 4) (fun p => u8 p 1 / 2 == 0 && zeroAt 2 2 p) 0 (linkStatusBody n.val)) s

/-- FAULT_RAISE (15, R416): a report from die `die`, 0 the yard. -/
def execFaultRaise (t : Nat) (det : Fin 32) (die : Fin 8) (s : State) : Host.Outcome State Fault Refusal :=
  actDie die.val t (faultReport det.val die.val) s

/-- RESET_SHADOW_END (15, R425). -/
def execResetShadowEnd (t : Nat) (b : ShadowBlock) (s : State) : Host.Outcome State Fault Refusal :=
  actDie (shadowDie b) t (endShadow b) s

/-- INJECTION_TIMEOUT (15, R432). -/
def execInjectionTimeout (t : Nat) (s : State) : Host.Outcome State Fault Refusal := act t injectionExpired s

/-- SCRUB_PASS (15, R420). -/
def execScrubPass (t : Nat) (m : ScrubMem) (corrections : Nat) (bad : Option Nat) (s : State) : Host.Outcome State Fault Refusal :=
  actDie (scrubDie m) t (scrubPass m corrections bad) s

/-- SRAM_TEST_WORD_READ (15, R431). -/
def execSramTestWordRead (t : Nat) (s : State) : Host.Outcome State Fault Refusal := act t readTestWord s

/-- CRYPTO_SELF_TEST_DONE (15, R418). -/
def execCryptoSelfTestDone (t : Nat) (pass : Bool) (s : State) : Host.Outcome State Fault Refusal := act t (selfTest pass) s

end Sys2Proof.Machine
end

