-- ==== Sys2Proof/Machine/NetCmds.lean ====
section
/-! DEFINITION. The commands of the Ethernet ports, the switch and the CAN FD controllers (11). -/

namespace Sys2Proof.Machine

open Sys2Proof

/-- ETHERNET_FRAME (11, R316). -/
def execEthernetFrame (t : Nat) (f : EthFrame) (s : State) : Host.Outcome State Fault Refusal := act t (ethFrame f) s

/-- LEARNED_ENTRY_AGE_OUT (11, R317). -/
def execLearnedEntryAgeOut (t : Nat) (mac : BitVec 48) (vid : Nat) (s : State) : Host.Outcome State Fault Refusal :=
  act t (ageOut mac vid) s

/-- T1_LINK_UP (11, R312, R320). -/
def execT1LinkUp (t : Nat) (s : State) : Host.Outcome State Fault Refusal := act t linkUp s

/-- T1_LINK_DOWN (11, R312, R317). -/
def execT1LinkDown (t : Nat) (s : State) : Host.Outcome State Fault Refusal := act t linkDown s

/-- PLCA_CYCLE (11, R313). -/
def execPlcaCycle (t : Nat) (s : State) : Host.Outcome State Fault Refusal := act t plcaCycle s

/-- NODE_PRESENCE_TIMEOUT (11, R314). -/
def execNodePresenceTimeout (t : Nat) (node : Fin 32) (s : State) : Host.Outcome State Fault Refusal :=
  act t (nodeGone node.val) s

/-- ARP_REQUEST (11, R320). -/
def execArpRequest (t : Nat) (r : IpRequest) (s : State) : Host.Outcome State Fault Refusal := act t (arpRequest r) s

/-- ICMP_ECHO_REQUEST (11, R320). -/
def execIcmpEchoRequest (t : Nat) (r : IpRequest) (s : State) : Host.Outcome State Fault Refusal := act t (icmpEcho r) s

/-- JHP_COMMAND_DATAGRAM (11, R323). -/
def execJhpCommandDatagram (t : Nat) (d : Datagram) (s : State) : Host.Outcome State Fault Refusal := act t (jhpDatagram d) s

/-- JHP_ACK_DATAGRAM (11, R324). -/
def execJhpAckDatagram (t : Nat) (d : Datagram) (s : State) : Host.Outcome State Fault Refusal := act t (jhpDatagram d) s

/-- REPLY_RESEND (11, R324). -/
def execReplyResend (t : Nat) (n : Fin 16) (s : State) : Host.Outcome State Fault Refusal := act t (resendItem true n.val) s

/-- WINDOW_WRITE_DATAGRAM (11, R325). -/
def execWindowWriteDatagram (t : Nat) (d : Datagram) (s : State) : Host.Outcome State Fault Refusal := act t (winDatagram d) s

/-- WINDOW_READ_DATAGRAM (11, R326). -/
def execWindowReadDatagram (t : Nat) (d : Datagram) (s : State) : Host.Outcome State Fault Refusal := act t (winDatagram d) s

/-- WINDOW_READ_DELAYED_COPY (11, R326). -/
def execWindowReadDelayedCopy (t : Nat) (s : State) : Host.Outcome State Fault Refusal := act t delayedCopy s

/-- CAN_JHP_COMMAND_FRAME (11, R329). -/
def execCanJhpCommandFrame (t : Nat) (c : Fin 2) (f : CanFrame) (s : State) : Host.Outcome State Fault Refusal :=
  act t (canCommand c f) s

/-- CAN_JHP_ACK_FRAME (11, R330). -/
def execCanJhpAckFrame (t : Nat) (c : Fin 2) (f : CanFrame) (s : State) : Host.Outcome State Fault Refusal :=
  act t (canAck c f) s

/-- CAN_REPLY_RESEND (11, R330). -/
def execCanReplyResend (t : Nat) (n : Fin 16) (s : State) : Host.Outcome State Fault Refusal := act t (resendItem false n.val) s

/-- CAN_DATA_FRAME (11, R331). -/
def execCanDataFrame (t : Nat) (c : Fin 2) (f : CanFrame) (s : State) : Host.Outcome State Fault Refusal :=
  act t (canMatch c.val f) s

/-- CAN_BUS_OFF (11, R328). -/
def execCanBusOff (t : Nat) (c : Fin 2) (tec : Byte) (s : State) : Host.Outcome State Fault Refusal :=
  act t (busOff c.val tec.toNat) s

/-- CAN_BUS_OFF_RECOVERED (11, R328). -/
def execCanBusOffRecovered (t : Nat) (c : Fin 2) (s : State) : Host.Outcome State Fault Refusal := act t (busBack c.val) s

/-- CAN_ERR_PASSIVE (11, R328). -/
def execCanErrPassive (t : Nat) (c : Fin 2) (tec rec : Byte) (s : State) : Host.Outcome State Fault Refusal :=
  act t (errPassive c.val tec.toNat rec.toNat) s

/-- CAN_VALUE_TIMEOUT (11, R333). -/
def execCanValueTimeout (t : Nat) (c : Fin 2) (i : Fin 64) (s : State) : Host.Outcome State Fault Refusal :=
  act t (valueTimeout c.val i.val) s

/-- CAN_STATUS_TX (11, R335). -/
def execCanStatusTx (t : Nat) (c : Fin 2) (i : Fin 64) (s : State) : Host.Outcome State Fault Refusal :=
  act t (statusTx c.val i.val) s

/-- CAN_MAP_LOAD (11, R336). -/
def execCanMapLoad (t : Nat) (n : Fin 16) (s : State) : Host.Outcome State Fault Refusal :=
  act t (runJhp n.val 0x0901 (fixed 4) (zeroAt 2 2) 2 (mapLoadBody n.val)) s

/-- CAN_RESTART (11, R328). -/
def execCanRestart (t : Nat) (n : Fin 16) (s : State) : Host.Outcome State Fault Refusal :=
  act t (runJhp n.val 0x0902 (fixed 4) (zeroAt 1 3) 1 restartBody) s

end Sys2Proof.Machine
end

