-- ==== Sys2Proof/Machine/PkCmds.lean ====
section
/-! DEFINITION. The lane instructions and the commands of the Paddock engines (13). -/

namespace Sys2Proof.Machine

open Sys2Proof

/-- NOP: one lane cycle with no effect (13, R360). -/
def execNop (t : Nat) (g : Fin 16) (s : State) : Host.Outcome State Fault Refusal :=
  act t (laneStep 0x0 g.val fun _ x => x.done) s

/-- BR (13, Table 13.3). -/
def execBr (t : Nat) (g : Fin 16) (pins : BitVec 24) (s : State) : Host.Outcome State Fault Refusal :=
  act t (stepBr g.val pins) s

/-- HOLD (13, R366). -/
def execHold (t : Nat) (g : Fin 16) (pins : BitVec 24) (s : State) : Host.Outcome State Fault Refusal :=
  act t (stepHold g.val pins) s

/-- SHO (13, R363). -/
def execSho (t : Nat) (g : Fin 16) (s : State) : Host.Outcome State Fault Refusal := act t (stepSho g.val) s

/-- SHI (13, R364). -/
def execShi (t : Nat) (g : Fin 16) (pins : BitVec 24) (s : State) : Host.Outcome State Fault Refusal :=
  act t (stepShi g.val pins) s

/-- LVL (13, Table 13.2). -/
def execLvl (t : Nat) (g : Fin 16) (s : State) : Host.Outcome State Fault Refusal := act t (laneStep 0x5 g.val laneLvl) s

/-- DIR (13, Table 13.2). -/
def execDir (t : Nat) (g : Fin 16) (s : State) : Host.Outcome State Fault Refusal := act t (laneStep 0x6 g.val laneDir) s

/-- LD (13, R365). -/
def execLd (t : Nat) (g : Fin 16) (pins : BitVec 24) (s : State) : Host.Outcome State Fault Refusal :=
  act t (stepLd g.val pins) s

/-- GIVE (13, R367). -/
def execGive (t : Nat) (g : Fin 16) (s : State) : Host.Outcome State Fault Refusal := act t (laneStep 0x8 g.val laneGive) s

/-- TAKE (13, R367). -/
def execTake (t : Nat) (g : Fin 16) (s : State) : Host.Outcome State Fault Refusal := act t (stepTake g.val) s

/-- FLAG (13, R369). -/
def execFlag (t : Nat) (g : Fin 16) (s : State) : Host.Outcome State Fault Refusal := act t (laneFlag g.val) s

/-- PADDOCK_EVENT_ACCEPT (13, R369). -/
def execPaddockEventAccept (t : Nat) (ev : Fin 64) (s : State) : Host.Outcome State Fault Refusal :=
  act t (acceptEvent ev.val) s

/-- PK_TX_QUEUE_MOVE (13, R370). -/
def execPkTxQueueMove (t : Nat) (g : Fin 16) (s : State) : Host.Outcome State Fault Refusal := act t (txMove g.val) s

/-- PK_RX_QUEUE_MOVE (13, R370). -/
def execPkRxQueueMove (t : Nat) (g : Fin 16) (s : State) : Host.Outcome State Fault Refusal := act t (rxMove g.val) s

/-- PK_LOAD (13, R373). -/
def execPkLoad (t : Nat) (n : Fin 16) (s : State) : Host.Outcome State Fault Refusal :=
  act t (runJhp n.val 0x0701 (fixed 4) (zeroAt 2 2) 2 (pkLoadBody n.val)) s

/-- PK_STORE (13, R377). -/
def execPkStore (t : Nat) (n : Fin 16) (s : State) : Host.Outcome State Fault Refusal :=
  act t (runJhp n.val 0x0702 (fixed 4) (zeroAt 2 2) 2 (pkStoreBody n.val)) s

/-- PK_PIN_CONFIG (13, R378). -/
def execPkPinConfig (t : Nat) (n : Fin 16) (s : State) : Host.Outcome State Fault Refusal :=
  act t (runJhp n.val 0x0703 (fixed 48) pinsOk 2 pinConfigBody) s

/-- PK_START (13, R374). -/
def execPkStart (t : Nat) (n : Fin 16) (s : State) : Host.Outcome State Fault Refusal :=
  act t (runJhp n.val 0x0704 (fixed 4) (zeroAt 2 2) 1 (lanesBody startLanes n.val)) s

/-- PK_STOP (13, R372, R374). -/
def execPkStop (t : Nat) (n : Fin 16) (s : State) : Host.Outcome State Fault Refusal :=
  act t (runJhp n.val 0x0705 (fixed 4) (zeroAt 2 2) 1 (lanesBody stopLanes n.val)) s

/-- PK_RESET (13, R375). -/
def execPkReset (t : Nat) (n : Fin 16) (s : State) : Host.Outcome State Fault Refusal :=
  act t (runJhp n.val 0x0706 (fixed 4) (zeroAt 1 3) 1 (pkResetBody n.val)) s

/-- PK_PUSH (13, R371). -/
def execPkPush (t : Nat) (n : Fin 16) (s : State) : Host.Outcome State Fault Refusal :=
  act t (runJhp n.val 0x0707 (fun p => 4 + 4 * u8 p 1) (zeroAt 2 2) 1 (pushBody n.val)) s

/-- PK_PULL (13, R371). -/
def execPkPull (t : Nat) (n : Fin 16) (s : State) : Host.Outcome State Fault Refusal :=
  act t (runJhp n.val 0x0708 (fixed 4) (zeroAt 2 2) 1 (pullBody n.val)) s

/-- PK_STATUS (13, Table 13.4). -/
def execPkStatus (t : Nat) (n : Fin 16) (s : State) : Host.Outcome State Fault Refusal :=
  act t (runJhp n.val 0x0709 (fixed 4) (zeroAt 1 3) 0 pkStatusBody) s

end Sys2Proof.Machine
end

