-- ==== Sys2Proof/Machine/PowerCmds.lean ====
section
/-! DEFINITION. The commands of supplies, resets, Night Watch and the start of the firmware (02; 16, R440). -/

namespace Sys2Proof.Machine

open Sys2Proof

/-- SUPPLY_VALID (02, R46). -/
def execSupplyValid (t : Nat) (s : State) : Host.Outcome State Fault Refusal := act t supplyUp s

/-- CRYSTAL_STABLE (18, R467). -/
def execCrystalStable (t : Nat) (s : State) : Host.Outcome State Fault Refusal := act t crystalUp s

/-- PWR_EN_STARTUP (02, R70). -/
def execPwrEnStartup (t : Nat) (s : State) : Host.Outcome State Fault Refusal := act t pwrEnUp s

/-- STABLE_LOAD_RETRY (02, R57). -/
def execStableLoadRetry (t : Nat) (s : State) : Host.Outcome State Fault Refusal := act t retryLoad s

/-- FIRMWARE_START (16, R440; 02, R58, R76; 14, R395). -/
def execFirmwareStart (t : Nat) (s : State) : Host.Outcome State Fault Refusal := act t startFirmware s

/-- POWER_ON_RESET (02, R69, Table 2.8). -/
def execPowerOnReset (t : Nat) (s : State) : Host.Outcome State Fault Refusal := act t powerOn s

/-- RAIL_BROWNOUT (02, R69, R74). -/
def execRailBrownout (t : Nat) (s : State) : Host.Outcome State Fault Refusal := act t railLoss s

/-- RESET_N_ASSERT (02, R74). -/
def execResetNAssert (t : Nat) (width : Nat) (s : State) : Host.Outcome State Fault Refusal := act t (resetPin width) s

/-- RESET_N_RELEASE (02, R74). -/
def execResetNRelease (t : Nat) (s : State) : Host.Outcome State Fault Refusal := act t resetPinUp s

/-- WATCHDOG_EXPIRY (15, Table 15.2). -/
def execWatchdogExpiry (t : Nat) (s : State) : Host.Outcome State Fault Refusal := act t watchdog s

/-- POWER_FAIL_DETECTED (02, R81). -/
def execPowerFailDetected (t : Nat) (s : State) : Host.Outcome State Fault Refusal := act t powerFail s

/-- POWER_FAIL_FLUSH_DONE (02, R81, R74; 14, R394). -/
def execPowerFailFlushDone (t : Nat) (s : State) : Host.Outcome State Fault Refusal := act t flushDone s

/-- VBAT_RETURN (02, R85). -/
def execVbatReturn (t : Nat) (lowest : Nat) (s : State) : Host.Outcome State Fault Refusal := act t (vbatBack lowest) s

/-- DIP_RESUME (02, R85). -/
def execDipResume (t : Nat) (s : State) : Host.Outcome State Fault Refusal := act t dipResume s

/-- NW_IDLE_TIMEOUT (02, R63). -/
def execNwIdleTimeout (t : Nat) (s : State) : Host.Outcome State Fault Refusal := act t idleTimeout s

/-- NW_FLUSH_DONE (02, Table 2.4). -/
def execNwFlushDone (t : Nat) (s : State) : Host.Outcome State Fault Refusal := act t nightDone s

/-- WAKE_PIN_EVENT (02, R64 to R67; 06, Table 6.9). -/
def execWakePinEvent (t : Nat) (p : Fin 4) (s : State) : Host.Outcome State Fault Refusal := act t (wakePin p.val) s

/-- LINK_ENERGY_DETECTED (11, R337; 02, R67). -/
def execLinkEnergyDetected (t : Nat) (s : State) : Host.Outcome State Fault Refusal := act t linkEnergy s

/-- WAKE_TIMER_EXPIRY (02, R68). -/
def execWakeTimerExpiry (t : Nat) (s : State) : Host.Outcome State Fault Refusal := act t wakeTimer s

/-- WAKE_FRAME (11, R338; 02, R67). -/
def execWakeFrame (t : Nat) (payload : List Byte) (s : State) : Host.Outcome State Fault Refusal :=
  act t (wakeFrameIn payload) s

/-- WAKE_FRAME_WINDOW_EXPIRY (02, R67). -/
def execWakeFrameWindowExpiry (t : Nat) (s : State) : Host.Outcome State Fault Refusal := act t windowExpired s

/-- PWR_EN_WAKE_RISE (02, R65). -/
def execPwrEnWakeRise (t : Nat) (s : State) : Host.Outcome State Fault Refusal := act t wakeRise s

/-- NW_ENTER (02, R63). -/
def execNwEnter (t : Nat) (n : Fin 16) (s : State) : Host.Outcome State Fault Refusal :=
  act t (runJhp n.val 0x0502 (fixed 0) noRsvd 1 nightBody) s

/-- WAKE_PIN_INACTIVE (02, R63; 06, Table 6.9). -/
def execWakePinInactive (t : Nat) (p : Fin 4) (s : State) : Host.Outcome State Fault Refusal := act t (wakePinOff p.val) s

/-- NW_OSCILLATOR_IN_BAND (18, Table 18.4; 15, Table 15.2). -/
def execNwOscillatorInBand (t : Nat) (s : State) : Host.Outcome State Fault Refusal := act t oscillatorUp s

/-- YARD_ROUND_CONVERSIONS_COMPLETE (09, R259). -/
def execYardRoundConversionsComplete (t : Nat) (r : YardReadings) (s : State) : Host.Outcome State Fault Refusal :=
  act t (yardRound r) s

end Sys2Proof.Machine
end

