-- ==== Sys2Proof/Machine/RoundCmds.lean ====
section
/-! DEFINITION. The commands of rounds, retests, captures, thermal protection, the pages and the commit rounds (05, 07 to 09, 17;
opcode_table.json, rows SHED_ROUND_COMPLETE to COMMIT_TIMEOUT). -/

namespace Sys2Proof.Machine

open Sys2Proof

/-- SHED_ROUND_COMPLETE (09, R258). -/
def execShedRoundComplete (t : Nat) (k : Fin 7) (r : ShedReadings) (s : State) : Host.Outcome State Fault Refusal :=
  actOn k t (fun s => if (getShed s k).warm.busy then shedRound k r s else s) s

/-- RETEST_EVALUATION (08, R254). -/
def execRetestEvaluation (t : Nat) (s : State) : Host.Outcome State Fault Refusal := act t evalRetest s

/-- LT_CAL_CAPTURE_END (07, R213). -/
def execLtCalCaptureEnd (t : Nat) (s : State) : Host.Outcome State Fault Refusal := act t captureDone s

/-- HOUSEKEEPING_ROUND (09, R258). -/
def execHousekeepingRound (t : Nat) (s : State) : Host.Outcome State Fault Refusal := act t startHousekeeping s

/-- NV_DEFERRED_WRITE (09, R273). -/
def execNvDeferredWrite (t : Nat) (s : State) : Host.Outcome State Fault Refusal := act t deferredWrites s

/-- ARMED_RECORD_REWRITE (09, R268). -/
def execArmedRecordRewrite (t : Nat) (s : State) : Host.Outcome State Fault Refusal := act t rearm s

/-- OVERTEMP_TRIP (09, R270). -/
def execOvertempTrip (t : Nat) (die : Fin 8) (s : State) : Host.Outcome State Fault Refusal := actDie die t (tripDie die) s

/-- DEFERRED_HOT_WRITE (09, R271). -/
def execDeferredHotWrite (t : Nat) (s : State) : Host.Outcome State Fault Refusal := act t hotDeferred s

/-- HOT_RECORD_VERIFY (09, R271). -/
def execHotRecordVerify (t : Nat) (readOk : Bool) (rewriteOk : Bool) (s : State) : Host.Outcome State Fault Refusal :=
  act t (hotVerify readOk rewriteOk) s

/-- VERDICT_MAP_PUBLISH (08, R244). -/
def execVerdictMapPublish (t : Nat) (s : State) : Host.Outcome State Fault Refusal := act t publishVerdicts s

/-- FUNCTION_STATE_TABLE_UPDATE (17, R459). -/
def execFunctionStateTableUpdate (t : Nat) (s : State) : Host.Outcome State Fault Refusal := act t updateFnTable s

/-- DEVICE_STATUS_PAGE_UPDATE (17, R458). -/
def execDeviceStatusPageUpdate (t : Nat) (s : State) : Host.Outcome State Fault Refusal := act t updateStatusPage s

/-- COMMIT_ROUND_START (05, R155). -/
def execCommitRoundStart (t : Nat) (s : State) : Host.Outcome State Fault Refusal := act t beginRound s

/-- COMMIT_TIMEOUT (05, R163). -/
def execCommitTimeout (t : Nat) (s : State) : Host.Outcome State Fault Refusal := act t roundTimeout s

end Sys2Proof.Machine
end

