-- ==== Sys2Proof/Machine/SceneOps.lean ====
section
/-! DEFINITION. Commits, recalls, readbacks and stored images (05, R147 to R154, R165, R166; 06, R198 to R200; 17, R456): named pages, the
checks of Tables 5.8 and 6.11, and the edits of a commit. -/

namespace Sys2Proof.Machine

open Sys2Proof

/-! Named pages (Table 5.2, R153). PARTS: bit 0 VALUES, 1 SITE_ATTR, 2 CHAN_ATTR, 3 FUNC_MAP, 4 FALLBACK. -/

def pVal (parts : Nat) : Bool := parts.testBit 0
def pAttr (parts : Nat) : Bool := parts.testBit 1
def pChan (parts : Nat) : Bool := parts.testBit 2
def pFn (parts : Nat) : Bool := parts.testBit 3
def pFall (parts : Nat) : Bool := parts.testBit 4

/-- The sheds of a SHEDS mask that the layout has. -/
def maskSheds (m : Nat) : List Nat := (List.range 7).filter fun k => m.testBit k

/-- A SHEDS mask names a shed that the variant lacks. -/
def absentIn (s : State) (m : Nat) : Bool := m / 2 ^ nSheds s ≠ 0

/-- The pages that a commit names. -/
def namedPages (parts sheds bank : Nat) : List Nat :=
  let ks := maskSheds sheds
  let many := fun (b : Bool) (l : List Nat) => if b then l else []
  (many (pVal parts && bank ≤ 3) (ks.map fun k => 0x10 + 8 * bank + k)
    ++ many (pAttr parts) (ks.flatMap fun k => (List.range 4).map fun j => 0x30 + 4 * k + j)
    ++ many (pChan parts) (ks.map fun _ => 0x4C)
    ++ many (pFn parts) [0x4D]
    ++ many (pFall parts) (ks.map fun k => 0x4E + k / 4)).eraseDups

/-- The pages of a list that the session holds HOST. -/
def heldPages (s : State) (n : Nat) (ps : List Nat) : List Nat := ps.filter (holds s n)

/-- The 64-bit words of a page from an offset. -/
def pageWords (s : State) (p off count : Nat) : List DWord := words64 (readPage s p off (8 * count))

/-- The edits of the named full parts: attributes, channels, the function map, fallback entries. -/
def partEdits (s : State) (parts sheds : Nat) : List Edit :=
  let ks := (maskSheds sheds).filter (isPresent s)
  (if pAttr parts then ks.flatMap fun k => (List.range 4).flatMap fun q =>
      (pageWords s (0x30 + 4 * k + q) 0 512).zipIdx.map fun w => Edit.attr (2048 * k + 512 * q + w.2) w.1 else [])
  ++ (if pChan parts then ks.flatMap fun k => (List.range 128).map fun c =>
      Edit.dot (128 * k + c) (winByte s 0x4C (512 * k + 4 * c)).toNat else [])
  ++ (if pFn parts then (List.range 256).map fun f => Edit.fn f (BitVec.ofNat 128 (ofLe (readPage s 0x4D (16 * f) 16))) else [])
  ++ (if pFall parts then ks.flatMap fun k => (List.range 256).map fun e =>
      Edit.fallback k e (BitVec.ofNat 32 (ofLe (readPage s (0x4E + k / 4) (1024 * (k % 4) + 4 * e) 4))) else [])

/-- Value edits under R154: sites with FN_EN 1 in the produced state whose function the session drives. `val` gives the value of a
site of a shed. -/
def valueEdits (s : State) (n : Nat) (cand : Table Img) (ks : List Nat) (val : Nat → Nat → Nat) : List Edit :=
  ks.flatMap fun k =>
    let m := Table.get [] cand k
    ((litSites m).filter fun i => decide ((getFn s (saFn (siteAttr m i))).holder = .session n)).map fun i => Edit.value (2048 * k + i) (val k i)

/-! Reserved fields of records (Tables 5.3 to 5.5, 5.13). -/

def attrRsvd (w : DWord) : Bool := dfld w 63 48 ≠ 0 || dfld w 46 43 ≠ 0 || dfld w 18 16 ≠ 0 || dfld w 14 11 ≠ 0
def fnRsvd (lo hi : DWord) : Bool :=
  dfld hi 31 18 ≠ 0 || dfld lo 39 34 ≠ 0 || dfld lo 23 16 ≠ 0 || dfld lo 11 11 ≠ 0 || dfld lo 7 0 ≠ 0
def fallRsvd (w : Nat) : Bool := w / 2 ^ 11 % 8 ≠ 0

/-- Place of a site's attribute: page and offset. -/
def attrPlace (k i : Nat) : Nat × Nat := (0x30 + 4 * k + i / 512, 8 * (i % 512))
def fallPlace (k e : Nat) : Nat × Nat := (0x4E + k / 4, 1024 * (k % 4) + 4 * e)

/-- First named record with a reserved field that is not zero. -/
def rsvdPlace (es : List Edit) : Option (Nat × Nat) :=
  es.findSome? fun e => match e with
    | .attr g w => if attrRsvd w then some (attrPlace (g / 2048) (g % 2048)) else none
    | .fn f w => if fnRsvd (BitVec.ofNat 64 w.toNat) (BitVec.ofNat 64 (w.toNat / 2 ^ 64)) then some (0x4D, 16 * f) else none
    | .fallback k i w => if fallRsvd w.toNat then some (fallPlace k i) else none
    | _ => none

/-- First channel record of a present shed (00, R8) in the named pages with a reserved byte that is not zero. -/
def chanRsvd (s : State) (parts sheds : Nat) : Option (Nat × Nat) :=
  if !pChan parts then none
  else (((maskSheds sheds).filter (isPresent s)).flatMap fun k => (List.range 128).map fun c => 512 * k + 4 * c).findSome? fun o =>
    if (readPage s 0x4C (o + 1) 3).all (· == 0) then none else some (0x4C, o)

/-! Configuration checks on the state that a commit would produce (Table 5.8). -/

/-- A function record is refused (Table 5.8). -/
def badFnRecord (m : Img) (f : Nat) : Bool :=
  fnDefined m f && (fnLapse m f == 3 || fnDriveLv m f == 0 || fnDriveLv m f == 3 || fnKnee m f > 160
    || fnSlope m f == 0 || fnSlope m f > 80 || fnFloor m f > 100)

/-- Sites with an attribute word that is not zero, by shed, in order. -/
def namedSites (s : State) (t : Table Img) : List (Nat × Nat × DWord) :=
  (present s).flatMap fun k => ((Table.get [] t k).filter fun p => A.attr ≤ p.1 && p.1 < A.attr + 2048).map fun p => (k, p.1 - A.attr, p.2)

/-- A site breaks a rule of Table 5.8, given all the sites. -/
def badSite (m : Img) (all : List (Nat × Nat × DWord)) (x : Nat × Nat × DWord) : Bool :=
  let w := x.2.2
  (saFnEn w && (!fnDefined m (saFn w) || (fnRegulated m (saFn w) && saColour w ≠ fnColour m (saFn w))))
  || (saExcl w ≠ 0 && all.any fun y => y.1 < x.1 && saExcl y.2.2 == saExcl w)
  || (saPeEn w && (all.filter fun y => y.1 == x.1 && y.2.1 ≤ x.2.1 && saPeEn y.2.2 && saPe y.2.2 == saPe w).length > 128)
  || (saSubEn w && saSub w == x.2.1)

/-- Valid entries of a fallback image, with their numbers. -/
def fallEntries (m : Img) : List (Nat × Nat) := ((List.range 256).map fun e => (e, fallbackEntry m e)).filter fun p => p.2.testBit 15

/-- First entry that names a site for the second time. -/
def fallTwice (m : Img) : Option Nat :=
  let l := fallEntries m
  (l.find? fun p => l.any fun q => q.1 < p.1 && q.2 % 2048 == p.2 % 2048).map (·.1)

/-- First record of the produced state that Table 5.8 refuses. -/
def configPlace (s : State) (t : Table Img) : Option (Nat × Nat) :=
  let m := Table.get [] t 0
  let all := namedSites s t
  (((List.range 256).find? (badFnRecord m)).map fun f => (0x4D, 16 * f)).orElse fun _ =>
  ((all.find? (badSite m all)).map fun x => attrPlace x.1 x.2.1).orElse fun _ =>
  (present s).findSome? fun k => (fallTwice (Table.get [] t k)).map (fallPlace k)

/-- The session has a commit or recall that awaits its reply (Table 5.8). -/
def commitOpen (s : State) (n : Nat) : Bool :=
  let mine := fun (c : Commit) => c.sess == n && (match c.kind with | .host | .recall => true | _ => false)
  s.scene.waiting.any mine || (match s.scene.round with | some r => r.commits.any mine | none => false)

/-- A commit joins those that wait. -/
def addCommit (kind : CommitKind) (n : Nat) (e : Entry) (frameId : Nat) (at_ : Option Word) (edits : List Edit) (pages : List Nat)
    (s : State) : State :=
  let c : Commit := { kind := kind, sess := n, entry := e.id, tag := e.tag, frameId := frameId, atFrame := at_, checked := s.now
                      edits := edits, pages := pages }
  { s with scene := { s.scene with waiting := s.scene.waiting ++ [c] } }

/-- Reply payload of a commit refused for a record (17, R452). -/
def recordReply (frameId : Nat) (pl : Nat × Nat) : List Byte := le 4 frameId ++ le 1 pl.1 ++ zeros 1 ++ le 2 pl.2

/-- A check that fails, or what follows. -/
def check (bad : Bool) (r : Rep) (next : Unit → Rep ⊕ α) : Rep ⊕ α := if bad then .inl r else next ()

/-- The checks of Table 5.8 for SCENE_COMMIT, in the table's order, and its edits. `held` are the named pages taken to DEVICE. -/
def commitChecks (n : Nat) (p : List Byte) (held : List Nat) (busy : Bool) (s : State) : Rep ⊕ List Edit :=
  let id := u32 p 0
  let bank := u8 p 4
  let sheds := u8 p 5
  let parts := u8 p 6 % 32
  let edits := partEdits s parts sheds
  let rsvd := (rsvdPlace edits).orElse fun _ => chanRsvd s parts sheds
  let cand := applyEdits edits s.scene.applied
  check (id = 0 || (pVal parts && bank > 3) || parts = 0) (rErr 4) fun _ =>
  match rsvd with
  | some pl => .inl (.now 3 0 (recordReply id pl))
  | none =>
    check (held ≠ namedPages parts sheds bank) (rErr 6) fun _ =>
    check (parts ≠ 1 && (getSess s n).priv ≠ .owner) (rErr 5) fun _ =>
    check busy (rErrD 0x0C 1) fun _ =>
    check (absentIn s sheds) (rErr 4) fun _ =>
    check ((namedPages parts sheds bank).any (pageBad s)) (rErr 0x0F) fun _ =>
    match (if parts = 1 then none else configPlace s cand) with
    | some pl => .inl (.now 0x0B 0 (recordReply id pl))
    | none =>
      check (safeOn s) (rErr 0x0D) fun _ =>
      check s.power.entry.isSome (rErrD 0x0E 5) fun _ =>
      let ks := (maskSheds sheds).filter (isPresent s)
      let vals := if pVal parts then
          valueEdits s n cand ks fun k i => ofLe (readPage s (0x10 + 8 * bank + k) (2 * i) 2) else []
      .inr (edits ++ vals)

/-- SCENE_COMMIT's own part (R153): pages, checks, and the commit that waits for a round. -/
def commitBody (n : Nat) (e : Entry) (s : State) : Rep × State :=
  let p := e.payload
  let named := namedPages (u8 p 6 % 32) (u8 p 5) (u8 p 4)
  let held := heldPages s n named
  let busy := commitOpen s n
  let s1 := pagesToDevice n held s
  match commitChecks n p held busy s1 with
  | .inl r => (r, returnPages n held s1)
  | .inr edits =>
    let at_ := if (u8 p 7).testBit 0 then some (BitVec.ofNat 32 (u32 p 8)) else none
    (.later, addCommit .host n e (u32 p 0) at_ edits held s1)

/-- Reserved bytes of SCENE_COMMIT's payload (Table 5.7). -/
def commitRsvd (p : List Byte) : Bool := u8 p 6 / 32 == 0 && u8 p 7 / 2 == 0

/-! Recall and readback (R148, R166). -/

/-- Values of a stored value scene: shed and values, for the sheds that it has a section for. -/
def sceneValues (body : List Byte) : List (Nat × List Byte) :=
  ((sections body).filter fun x => x.1 == 0x0004).map fun x => (x.2.1, sectionBody body x)

/-- SCENE_RECALL (R166). -/
def recallBody (n : Nat) (e : Entry) (s : State) : Rep × State :=
  let p := e.payload
  let scene := u8 p 0
  let sheds := u8 p 1
  let id := u32 p 4
  if scene = 0 || scene > 16 || id = 0 then (rErr 4, s)
  else
    match pickCopy s scene (imageFits s) with
    | none => (rErr 0x0D, s)
    | some (_, body) =>
      if commitOpen s n then (rErrD 0x0C 1, s)
      else if absentIn s sheds then (rErr 4, s)
      else if safeOn s then (rErr 0x0D, s)
      else if s.power.entry.isSome then (rErrD 0x0E 5, s)
      else
        let vs := sceneValues body
        let ks := (maskSheds sheds).filter fun k => vs.any fun v => v.1 == k
        let val := fun (k i : Nat) => u16 (((vs.find? fun v => v.1 == k).map (·.2)).getD []) (2 * i)
        (.later, addCommit .recall n e id none (valueEdits s n s.scene.applied ks val) [] s)

/-- The applied content of the named parts goes into their pages (R148). -/
def readbackFill (parts sheds bank : Nat) (s : State) : State :=
  let want := namedPages parts sheds bank
  forAll (present s) (fun k s =>
    forAll (imagePages s k) (fun pg s =>
      let bankOk := pg.1 ≥ 0x30 || pg.1 / 8 == 2 + bank
      let mine := sheds.testBit k || pg.1 == 0x4D
      if want.contains pg.1 && bankOk && mine then storePage pg.1 pg.2.1 pg.2.2 s else s) s) s

/-- SCENE_READBACK (R148; 17, Table 17.2). DESIGN CHOICE: without a part it is a range error (log entry 201). -/
def readbackBody (n : Nat) (e : Entry) (s : State) : Rep × State :=
  let p := e.payload
  let parts := u8 p 0
  let sheds := u8 p 1
  let bank := u8 p 2
  let named := namedPages parts sheds bank
  if parts = 0 || (pVal parts && bank > 3) || absentIn s sheds then (rErr 4, s)
  else if !named.all (holds s n) then (rErr 6, s)
  else (rOk [], returnPages n named (readbackFill parts sheds bank (pagesToDevice n named s)))

/-! Programs (Table 6.11). -/

/-- The 100 words of an engine's block in the pattern pages (Table 6.1). -/
def blockWords (s : State) (g : Nat) : List DWord := pageWords s (0x50 + g / 2) (2048 * (g % 2)) 100

/-- Byte `i` of a block given as words. -/
def wByte (ws : List DWord) (i : Nat) : Nat := dfld (ws.getD (i / 8) 0) (8 * (i % 8) + 7) (8 * (i % 8))
def wHalf (ws : List DWord) (i : Nat) : Nat := wByte ws i + 256 * wByte ws (i + 1)
def wQuad (ws : List DWord) (i : Nat) : Nat := wHalf ws i + 65536 * wHalf ws (i + 2)

/-- Site offset entries of a block. -/
def offsetEntries (ws : List DWord) : List Nat := (List.range 128).map fun i => wQuad ws (288 + 4 * i)

/-- A reserved field of a block is not zero (Tables 6.3, 6.4, 6.6). DESIGN CHOICE: the bytes that Table 6.1 calls Reserved are no fields of
the block (log entry 203). -/
def progRsvd (ws : List DWord) : Bool :=
  wByte ws 1 / 64 ≠ 0 || wByte ws 8 / 64 % 2 ≠ 0 || (List.range 16).any (fun i => wByte ws (16 + i) ≠ 0)
  || (List.range 32).any (fun q => dfld (ws.getD (4 + q) 0) 9 0 ≠ 0)
  || (offsetEntries ws).any fun x => x / 2048 % 32 ≠ 0

/-- A keyframe is refused (Table 6.11). -/
def badKeyframe (keys span : Nat) (w : DWord) : Bool :=
  let flow := dfld w 26 24
  dfld w 47 32 == 0 || dfld w 30 28 ≥ 5 || flow ≥ 4 || dfld w 22 18 ≥ keys
  || (dfld w 27 27 == 1 && dfld w 31 31 == 0 && dfld w 47 32 ≤ span)

/-- A program is refused (Table 6.11). -/
def badProgram (ws : List DWord) : Bool :=
  let keys := wByte ws 0
  let flags := wByte ws 1
  let used := (offsetEntries ws).take (wByte ws 9)
  let sites := used.map (· % 2048)
  keys > 32 || flags / 4 % 4 ≥ 2 || flags / 16 % 4 == 3 || (flags / 16 % 4 == 1 && wHalf ws 6 == 0) || wByte ws 9 > 128
  || (List.range keys).any (fun q => badKeyframe keys (wHalf ws 10) (ws.getD (4 + q) 0))
  || sites.eraseDups.length ≠ sites.length

/-- A reserved field of the trigger area is not zero (Tables 6.8, 6.9). -/
def trigRsvd (b : List Byte) : Bool :=
  (List.range 64).any (fun n => u8 b (16 * n) % 16 ≠ 0 || u8 b (16 * n + 1) ≠ 0)
  || (List.range 4).any fun i => u32 b (1024 + 4 * i) / 256 ≠ 0

/-- A valid trigger entry has ACTION 0b11 or names an absent engine (Table 6.11). -/
def badTrig (sheds : Nat) (b : List Byte) : Bool :=
  (List.range 64).any fun n =>
    let e := ofLe (slice b (16 * n) 16)
    e.testBit 5 && (e / 64 % 4 == 3 || e / 2 ^ (16 + 16 * sheds) ≠ 0)

/-- PAT_LOAD (06, R198; Table 6.11 in its order). -/
def loadBody (n : Nat) (e : Entry) (s : State) : Rep × State :=
  let engines := maskList e.payload 0 112
  let trig := (u8 e.payload 14).testBit 0
  let named := (engines.map (0x50 + · / 2)).eraseDups ++ (if trig then [0x88] else [])
  let held := heldPages s n named
  let s1 := pagesToDevice n held s
  let blocks := engines.map fun g => (g, blockWords s g)
  let area := readPage s 0x88 0 1048
  let bad := fun (r : Rep) => (r, returnPages n held s1)
  if held ≠ named then bad (rErr 6)
  else if engines.any fun g => !isPresent s (g / 16) then bad (rErr 4)
  else if blocks.any (fun b => progRsvd b.2) || (trig && trigRsvd area) then bad (rErr 3)
  else if blocks.any (fun b => badProgram b.2) || (trig && badTrig (nSheds s) area) then bad (rErr 0x0B)
  else if named.any (pageBad s) then bad (rErr 0x0F)
  else if safeOn s then bad (rErr 0x0D)
  else if s.power.entry.isSome then bad (rErrD 0x0E 5)
  else
    (.later, addCommit (.pattern engines (if trig then some area else none)) n e 0 none (blocks.map fun b => .prog b.1 b.2) held s1)

/-! SCENE_STORE (R166; 17, R456). -/

/-- Body length that a section type has, where it is fixed. -/
def sectionLength (type : Nat) : Option Nat :=
  match type with
  | 0x0001 => some 4096
  | 0x0002 => some 512
  | 0x0003 => some 16384
  | 0x0004 => some 4096
  | 0x0005 => some 1024
  | _ => none

/-- Sections lie within the image and have their types' lengths; package-wide ones carry SHED 0xFF (Table 5.12). -/
def badSection (kind : Nat) (p : List Byte) (x : Nat × Nat × Nat × Nat) : Bool :=
  let (type, shed, off, len) := x
  let wide := type == 1 || type == 6 || type == 7
  type == 0 || type > 7 || (kind == 2 && type ≠ 4) || off + len > u32 p 12 || off < 64 + 12 * u8 p 9
  || (wide && shed ≠ 0xFF) || (!wide && shed > 6)
  || (match sectionLength type with | some l => len ≠ l | none => false)
  || (type == 6 && len % 8 ≠ 0)
  || (type == 7 && (len < 1052 || len ≠ 1052 + 804 * u32 (sectionBody p x) 1048))

/-- The image's header and sections have their form (Table 5.11). DESIGN CHOICE: a VALUES image may name SCENE 0 and is then stored as the
Stable scene's item (log entry 175). -/
def badHeader (s : State) (p : List Byte) : Bool :=
  let kind := u8 p 6
  u32 p 0 ≠ 0x4E43535A || u16 p 4 ≠ 1 || (kind ≠ 1 && kind ≠ 2) || u8 p 7 > 16 || (kind == 1 && u8 p 7 ≠ 0)
  || !(u8 p 8 == 0 || u8 p 8 == s.variant.code) || u8 p 9 == 0 || u8 p 9 > 64 || u32 p 12 < 64
  || u32 p 12 > (if u8 p 7 = 0 then 262144 else 32768) || (sections p).any (badSection kind p)

/-- A reserved field of the image is not zero: header, section entries, records. -/
def imageRsvd (s : State) (p : List Byte) : Bool :=
  let fns := (sections p).filter fun x => x.1 == 1
  u16 p 10 ≠ 0 || !zeroAt 52 12 p || (List.range (u8 p 9)).any (fun i => u8 p (64 + 12 * i + 3) ≠ 0)
  || (sections p).any (fun x =>
    let b := sectionBody p x
    if x.1 ≠ 1 && x.1 < 6 && !isPresent s x.2.1 then false
    else match x.1 with
    | 2 => (List.range 128).any fun c => u32 b (4 * c) / 256 ≠ 0
    | 3 => (words64 b).any attrRsvd
    | 5 => (List.range 256).any fun e => fallRsvd (u32 b (4 * e))
    | 6 => (blockEntries b).any entryRsvd
    | 7 => trigRsvd b || (engineRecords b).any (fun r => isPresent s (r.1 / 16) && progRsvd r.2)
        || (List.range (u32 b 1048)).any fun i => u16 b (1052 + 804 * i + 2) ≠ 0
    | _ => false)
  || fns.any fun x => (List.range 256).any fun f =>
      let b := slice (sectionBody p x) (16 * f) 16
      fnRsvd (BitVec.ofNat 64 (u64 b 0)) (BitVec.ofNat 64 (u64 b 8))

/-- An entry of a register block names a register that cannot be written, or the wrong SHED (R456). -/
def badBlockEntry (e : Nat × Nat × Nat × Word) : Bool :=
  match regRow e.1 with
  | none => true
  | some r => decide (r.write = .ro) || (if e.1 < 0x1000 then e.2.1 ≠ 0xFF else e.2.1 > 6)

/-- Programs and triggers of a stored image are refused (06, R200). -/
def badPrograms (s : State) (b : List Byte) : Bool :=
  badTrig (nSheds s) b || (engineRecords b).any fun r => r.1 > 111 || (isPresent s (r.1 / 16) && badProgram r.2)

/-- A FULL image would leave a scene or a configuration that is refused (Table 5.8; 17, R456). -/
def badFull (s : State) (p : List Byte) : Bool :=
  let imgs := mapImgs (present s) (fullImage p)
  (configPlace s imgs).isSome || (imageBlocks p).any (fun b => (blockEntries b).any badBlockEntry)
  || badConfig (nSheds s) ((imageBlocks p).foldl (fun t b => applyBlock b t) (factoryRegs s.regs))
  || (sections p).any fun x => x.1 == 7 && badPrograms s (sectionBody p x)

/-- SCENE_STORE (R166; 17, Table 17.2). Reserved fields come before the command's own checks (00, R15), but the image must be whole. DESIGN
CHOICE: a header or section out of form is the configuration error (log entry 201). -/
def storeBody (n : Nat) (e : Entry) (s : State) : Rep × State :=
  let p0 := u8 e.payload 0
  let count := u8 e.payload 1
  let pages := (List.range count).map (p0 + ·)
  if count = 0 || !pages.all bulkPage then (rErr 4, s)
  else if !nvOpen s then (rErrD 0x0E 4, s)
  else if !pages.all (holds s n) then (rErr 6, s)
  else
    let s1 := pagesToDevice n pages s
    let img := pages.flatMap fun p => readPage s p 0 4096
    let bad := fun (r : Rep) => (r, returnPages n pages s1)
    let len := u32 img 12
    if len > 4096 * count || len < 64 then bad (rErr 0x0B)
    else
      let p := img.take len
      if pages.any (pageBad s) || sha256 (p.drop 64) ≠ slice p 20 32 then bad (rErr 0x0F)
      else if imageRsvd s p then bad (rErr 3)
      else if badHeader s p then bad (rErr 0x0B)
      else if u8 p 6 = 1 && badFull s p then bad (rErr 0x0B)
      else
        let scene := u8 p 7
        let version := u32 p 16
        (.later, queueWrite (nvWrite scene p n e (le 1 scene ++ zeros 3 ++ le 4 version) pages [(0x0202, scene, version)]) s1)

end Sys2Proof.Machine
end

