-- ==== Sys2Proof/Machine/LampOps.lean ====
section
/-! DEFINITION. The commands of pattern controls, function clears, lamp temperature and its calibration (06 R186 to R190; 07 R213 to R216; 08
R252, R253; 17, Tables 17.2 and 17.3): their own checks, replies and effects. -/

namespace Sys2Proof.Machine

open Sys2Proof

/-! Pattern controls (06). -/

/-- The mask names an engine that the variant lacks (06, R190; 00, R9). -/
def absentEngine (s : State) (l : List Nat) : Bool := l.any fun g => !isPresent s (g / 16)

/-- The named mark under AT (06, Table 6.10). -/
def atMark (s : State) (at_ : Bool) (f : Word) : Word :=
  let m := controlMark s
  if at_ && !markAtOrAfter m f then f else m

/-- PAT_START and PAT_STOP. -/
def controlBody (act : PatAct) (e : Entry) (s : State) : Rep × State :=
  let p := e.payload
  let l := maskList p 0 112
  let m := atMark s ((u8 p 14).testBit 0) (BitVec.ofNat 32 (u32 p 16))
  if absentEngine s l then (rErr 4, s)
  else if safeOn s then (rErr 0x0D, s)
  else (rOk (le 4 m.toNat), sendControls l act ((u8 p 14).testBit 1) m s)

/-- PAT_TRIGGER. -/
def triggerBody (e : Entry) (s : State) : Rep × State :=
  let p := e.payload
  let m := atMark s ((u8 p 1).testBit 0) (BitVec.ofNat 32 (u32 p 4))
  if u8 p 0 > 63 then (rErr 4, s)
  else if safeOn s then (rErr 0x0D, s)
  else (rOk (le 4 m.toNat), raiseTrigger (u8 p 0) m s)

/-- PAT_RESET (R186). -/
def engineResetBody (e : Entry) (s : State) : Rep × State :=
  let l := maskList e.payload 0 112
  let m := controlMark s
  if absentEngine s l then (rErr 4, s) else (rOk (le 4 m.toNat), sendControls l .reset false m s)

/-- PAT_STATUS (Table 6.12). -/
def engineStatusBody (e : Entry) (s : State) : Rep × State :=
  let g := u8 e.payload 0
  let c := u8 e.payload 1
  if c = 0 || c > 14 || g + c > 112 || absentEngine s ((List.range c).map (g + ·)) then (rErr 4, s)
  else (rOk ((List.range c).flatMap fun i => le 4 (peSt (getEngine (getShed s ((g + i) / 16)) ((g + i) % 16))).toNat), s)

/-! FN_CLEAR (08, R252, R253). -/

/-- A site of the function has a fresh off-state class other than OFF_NORM, at its own sink or a following one. -/
def offFault (s : State) (k i : Nat) : Bool :=
  let d := getShed s k
  (groupSites d i).any fun j => (getSite d j).offCls ≠ 0 && (getSite d j).offCls ≠ 2 && !staleOff d j

/-- The retest pulse of a site does not fit (Table 8.10). -/
def retestTight (s : State) (k i : Nat) : Bool :=
  let d := getShed s k
  if (boosterOf d.cfg (chOf i)).isSome then max 300 (minPulse d.cfg (chOf i)) > d.perP
  else let r := spanOf d.cfg d.perP i; r.2 < r.1 + 300

/-- FN_CLEAR (Table 8.10 in its order, R253). -/
def clearBody (n : Nat) (e : Entry) (s : State) : Rep × State :=
  let f := u8 e.payload 0
  let x := getFn s f
  let refuse := fun (c d site : Nat) => (Rep.now c d (clearReply f site 0), s)
  let sites := (present s).flatMap fun k => (sitesOf (applied s k) f).map fun i => (k, i)
  if x.holder ≠ .session n && (getSess s n).priv ≠ .owner then refuse 5 0 0xFFFF
  else if x.st ≠ 1 then refuse 0x0D 0 0xFFFF
  else if s.therm.retest.isSome then refuse 0x0C 3 0xFFFF
  else if sites.any fun p => !shedServing s p.1 then refuse 0x10 0 0xFFFF
  else
    match sites.find? fun p => offFault s p.1 p.2 with
    | some (k, i) => refuse 0x13 0 (2048 * k + i)
    | none =>
      if sites.any fun p => drivable (getShed s p.1).cfg p.2 && retestTight s p.1 p.2 then refuse 0x0B 0 0xFFFF
      else
        let r : Retest := { fn := f, mark := 0, named := false, sess := n, entry := e.id, periods := 0, back := none, failSite := none }
        let s := nameRetest { s with therm := { s.therm with retest := some r } }
        (.later, if outputsAllowed s then s else abandonRetest 0x0E 2 s)

/-! Lamp temperature (07). -/

/-- SHED, first site and count of a lamp-temperature command lie in the shed. -/
def sitesOk (s : State) (k site count : Nat) : Bool := isPresent s k && count ≥ 1 && site + count ≤ 2048

/-- Entry of LT_READ: T_B, T_V, DELTA, T_L of the newest estimates (17, Table 17.3). -/
def lampEntry (d : Shed) (i : Nat) : List Byte :=
  let x := getSite d i
  le 2 (toBits 16 (d.warm.baseNext.getD (baseIndex d.cfg (chOf i)) 0))
  ++ le 2 (match x.tv with | some t => toBits 16 t | none => 0x8000)
  ++ le 2 (toBits 16 x.delta) ++ le 2 (toBits 16 (lampNext d i))

/-- LT_READ. -/
def lampRead (e : Entry) (s : State) : Rep × State :=
  let k := u8 e.payload 0
  let c := u8 e.payload 1
  let i := u16 e.payload 2
  if c > 7 || !sitesOk s k i c then (rErr 4, s)
  else (rOk ((List.range c).flatMap fun j => lampEntry (getShed s k) (i + j)), s)

/-- LT_CAL_CAPTURE (R213, R215). The reply goes out once the mark is named (log entry 195). -/
def captureBody (n : Nat) (e : Entry) (s : State) : Rep × State :=
  let p := e.payload
  let k := u8 p 0
  let i := u16 p 2
  let c := u8 p 4
  let acal := u16 p 6
  let d := getShed s k
  let tight := fun (j : Nat) => let r := rowSpan d.perP (rowsOf d.cfg) (10 * cf d.cfg R.dimCfg 31 25) (rowOf (i + j)); r.2 < r.1 + 300
  if s.lt.capture.isSome then (rErrD 0x0C 2, s)
  else if u8 p 1 > 1 || c > 128 || acal < 256 || acal > 4095 || !sitesOk s k i c then (rErr 4, s)
  else if (List.range c).any tight then (rErr 0x0B, s)
  else
    let site := fun (j : Nat) => ({ site := i + j, sumA := 0, nA := 0, sumB := 0, nB := 0, low := false, tbFirst := none, tbMin := 0
                                    tbMax := 0, tbSum := 0, tbN := 0, invalid := false, status := 0, fs := 0 } : CapSite)
    let m := markIn s (1200 * us)
    let y : Capture := { shed := k, point := u8 p 1, acal := acal, mark := m, sess := n, entry := e.id, named := true, periods := 0
                         sites := (List.range c).map site }
    let run := fun (y : Capture) => { s with lt := { s.lt with capture := some y, arrived := none } }
    if shedServing s k && outputsAllowed s then (.later, nameCapture (run { y with mark := 0, named := false }))
    else (rOk (le 4 m.toNat), endCapture (run y))

/-- LT_CAL_STATUS. -/
def calStatusBody (e : Entry) (s : State) : Rep × State :=
  let k := u8 e.payload 0
  let c := u8 e.payload 1
  let i := u16 e.payload 2
  let st := fun (q j : Nat) => (Table.get CalPoint.init s.lt.points (2 * (2048 * k + i + j) + q)).status
  if c > 52 || !sitesOk s k i c then (rErr 4, s)
  else (rOk (le 1 (if s.lt.capture.isSome then 1 else if s.lt.held then 2 else 0) ++ zeros 3
    ++ (List.range c).map fun j => BitVec.ofNat 8 (st 0 j + 16 * st 1 j)), s)

/-- The calibration table that the next write of shed `k` starts from: the newest accepted one. -/
def calBase (s : State) (k : Nat) : List Byte :=
  match (s.store.queue.filter fun w => w.item == N.cal k).getLast? with
  | some w => w.body
  | none => padTo 16384 (calBody s k)

/-- Records put into a calibration table: site and record. -/
def putCal (b : List Byte) (rs : List (Nat × DWord)) : List Byte := rs.foldl (fun b r => patch (8 * r.1) (le 8 r.2.toNat) b) b

/-- Reply of the calibration writes. -/
def calReply (written kept : Nat) : List Byte := le 2 written ++ le 2 kept

/-- LT_CAL_COMMIT (R216). -/
def calCommitBody (n : Nat) (e : Entry) (s : State) : Rep × State :=
  let k := u8 e.payload 0
  let i := u16 e.payload 2
  let c := u16 e.payload 4
  let at_ := fun (j q : Nat) => 2 * (2048 * k + i + j) + q
  let pt := fun (j q : Nat) => Table.get CalPoint.init s.lt.points (at_ j q)
  if !sitesOk s k i c then (rErr 4, s)
  else if !s.lt.held then (rErr 0x0D, s)
  else if !nvOpen s then (rErrD 0x0E 4, s)
  else
    let rs := (List.range c).map fun j => (j, calRecord (pt j 0) (pt j 1))
    let good := (rs.filter fun r => r.2.1 = 0).map fun r => (i + r.1, r.2.2)
    -- the results end; the status of a site that keeps its record stays to be read
    let mark := fun (t : Table CalPoint) (r : Nat × Nat × BitVec 64) =>
      if r.2.1 = 0 then t
      else
        -- a site without either point is NO_POINT
        let st := fun (x : CalPoint) => if x.kept || x.status = 15 then { CalPoint.init with status := r.2.1 } else { CalPoint.init with status := x.status }
        Table.put CalPoint.init (Table.put CalPoint.init t (at_ r.1 0) (st (pt r.1 0))) (at_ r.1 1) (st (pt r.1 1))
    let s := { s with lt := { s.lt with held := false, points := rs.foldl mark [] } }
    let w := good.length
    (.later, queueWrite { nvWrite (N.cal k) (putCal (calBase s k) good) n e (calReply w (c - w)) [] [(0x0410, k, w)] with cal := good.map (·.1) } s)

/-- A record that LT_CAL_WRITE may write: the checks of R216 on a valid record, and ACAL in its range (Table 7.7). -/
def goodRecord (w : DWord) : Bool :=
  !calValid w || (decide (-32767 ≤ calTc w) && decide (calTc w ≤ -100) && decide (256 ≤ calA w))

/-- LT_CAL_WRITE (R216; 17, Table 17.3). -/
def calWriteBody (n : Nat) (e : Entry) (s : State) : Rep × State :=
  let pg := u8 e.payload 0
  let k := u8 e.payload 1
  let i := u16 e.payload 2
  let c := u16 e.payload 4
  if c > 512 || !sitesOk s k i c then (rErr 4, s)
  else if !holds s n pg then (rErr 6, s)
  else if !nvOpen s then (rErrD 0x0E 4, s)
  else
    let rs := (pageWords s pg 0 c).zipIdx.map fun w => (i + w.2, w.1)
    if pageBad s pg then (rErr 0x0F, s)
    else if rs.any fun r => dfld r.2 10 0 ≠ 0 then (rErr 3, s)
    else
      let good := rs.filter fun r => goodRecord r.2
      let w := good.length
      let s := pagesToDevice n [pg] s
      (.later, queueWrite { nvWrite (N.cal k) (putCal (calBase s k) good) n e (calReply w (c - w)) [pg] [(0x0410, k, w)] with cal := good.map (·.1) } s)

/-- THERM_CLEAR (09, R272). -/
def thermClearBody (s : State) : Rep × State :=
  if !inCold s then (rErr 0x0D, s)
  else if !mayExit (tjMax s).1 s then (rErr 0x13, s)
  else (rOk [], exitCold false s)

end Sys2Proof.Machine
end

