-- ==== Sys2Proof/Machine/SceneCmds.lean ====
section
/-! DEFINITION. The JHP commands of scenes, patterns, functions' clears and lamp temperature (05 to 09; 17, Tables 17.2 and 17.3; opcode_table.json, rows
SCENE_COMMIT to THERM_CLEAR). -/

namespace Sys2Proof.Machine

open Sys2Proof

/-- SCENE_COMMIT (05, R153). -/
def execSceneCommit (t : Nat) (n : Fin 16) (s : State) : Host.Outcome State Fault Refusal :=
  act t (runJhp n.val 0x0201 (fixed 12) commitRsvd 1 (commitBody n.val)) s

/-- SCENE_RECALL (05, R166). -/
def execSceneRecall (t : Nat) (n : Fin 16) (s : State) : Host.Outcome State Fault Refusal :=
  act t (runJhp n.val 0x0202 (fixed 8) (zeroAt 2 2) 1 (recallBody n.val)) s

/-- SCENE_READBACK (05, R148). -/
def execSceneReadback (t : Nat) (n : Fin 16) (s : State) : Host.Outcome State Fault Refusal :=
  act t (runJhp n.val 0x0203 (fixed 4) (fun p => u8 p 3 == 0 && u8 p 0 / 32 == 0) 0 (readbackBody n.val)) s

/-- SCENE_STORE (05, R166). -/
def execSceneStore (t : Nat) (n : Fin 16) (s : State) : Host.Outcome State Fault Refusal :=
  act t (runJhp n.val 0x0204 (fixed 4) (zeroAt 2 2) 2 (storeBody n.val)) s

/-- PAT_LOAD (06, R198). -/
def execPatLoad (t : Nat) (n : Fin 16) (s : State) : Host.Outcome State Fault Refusal :=
  act t (runJhp n.val 0x0301 (fixed 16) (fun p => u8 p 14 / 2 == 0 && u8 p 15 == 0) 2 (loadBody n.val)) s

/-- PAT_START (06, R190). -/
def execPatStart (t : Nat) (n : Fin 16) (s : State) : Host.Outcome State Fault Refusal :=
  act t (runJhp n.val 0x0302 (fixed 20) (fun p => u8 p 14 / 2 == 0 && u8 p 15 == 0) 1 (controlBody .start)) s

/-- PAT_STOP (06, R190). -/
def execPatStop (t : Nat) (n : Fin 16) (s : State) : Host.Outcome State Fault Refusal :=
  act t (runJhp n.val 0x0303 (fixed 20) (fun p => u8 p 14 / 4 == 0 && u8 p 15 == 0) 1 (controlBody .stop)) s

/-- PAT_TRIGGER (06, R188). -/
def execPatTrigger (t : Nat) (n : Fin 16) (s : State) : Host.Outcome State Fault Refusal :=
  act t (runJhp n.val 0x0304 (fixed 8) (fun p => u8 p 1 / 2 == 0 && zeroAt 2 2 p) 1 triggerBody) s

/-- PAT_RESET (06, R186). -/
def execPatReset (t : Nat) (n : Fin 16) (s : State) : Host.Outcome State Fault Refusal :=
  act t (runJhp n.val 0x0305 (fixed 16) (zeroAt 14 2) 1 engineResetBody) s

/-- PAT_STATUS (06, Table 6.12). -/
def execPatStatus (t : Nat) (n : Fin 16) (s : State) : Host.Outcome State Fault Refusal :=
  act t (runJhp n.val 0x0306 (fixed 4) (zeroAt 2 2) 0 engineStatusBody) s

/-- FN_CLEAR (08, R252). -/
def execFnClear (t : Nat) (n : Fin 16) (s : State) : Host.Outcome State Fault Refusal :=
  act t (runJhp n.val 0x0401 (fixed 4) (zeroAt 1 3) 0 (clearBody n.val)) s

/-- LT_READ (17, Table 17.3). -/
def execLtRead (t : Nat) (n : Fin 16) (s : State) : Host.Outcome State Fault Refusal :=
  act t (runJhp n.val 0x0410 (fixed 4) noRsvd 0 lampRead) s

/-- LT_CAL_CAPTURE (07, R213). -/
def execLtCalCapture (t : Nat) (n : Fin 16) (s : State) : Host.Outcome State Fault Refusal :=
  act t (runJhp n.val 0x0411 (fixed 8) (zeroAt 5 1) 2 (captureBody n.val)) s

/-- LT_CAL_STATUS (07, R214). -/
def execLtCalStatus (t : Nat) (n : Fin 16) (s : State) : Host.Outcome State Fault Refusal :=
  act t (runJhp n.val 0x0412 (fixed 4) noRsvd 0 calStatusBody) s

/-- LT_CAL_COMMIT (07, R216). -/
def execLtCalCommit (t : Nat) (n : Fin 16) (s : State) : Host.Outcome State Fault Refusal :=
  act t (runJhp n.val 0x0413 (fixed 8) (fun p => zeroAt 1 1 p && zeroAt 6 2 p) 2 (calCommitBody n.val)) s

/-- LT_CAL_WRITE (07, R216). -/
def execLtCalWrite (t : Nat) (n : Fin 16) (s : State) : Host.Outcome State Fault Refusal :=
  act t (runJhp n.val 0x0414 (fixed 8) (zeroAt 6 2) 2 (calWriteBody n.val)) s

/-- THERM_CLEAR (09, R272). -/
def execThermClear (t : Nat) (n : Fin 16) (s : State) : Host.Outcome State Fault Refusal :=
  act t (runJhp n.val 0x0501 (fixed 0) noRsvd 1 (fun _ => thermClearBody)) s

end Sys2Proof.Machine
end

