-- ==== Sys2Proof/Machine/SerialCmds.lean ====
section
/-! DEFINITION. The commands of the SPI controller ports (12). -/

namespace Sys2Proof.Machine

open Sys2Proof

/-- SPIM_CONFIG (12, R358). -/
def execSpimConfig (t : Nat) (n : Fin 16) (s : State) : Host.Outcome State Fault Refusal :=
  act t (runJhp n.val 0x0801 (fixed 12) configOk 1 (spimConfigBody n.val)) s

/-- SPIM_XFER (12, R346). -/
def execSpimXfer (t : Nat) (n : Fin 16) (miso : List Word) (s : State) : Host.Outcome State Fault Refusal :=
  act t (fun s => runJhp n.val 0x0802 (xferLen s) (fun p => bindOk p && u8 p 1 < 2 && zeroAt 3 1 p) 1 (xferBody n.val miso) s) s

/-- SPIM_XFER_PAGE (12, R348). -/
def execSpimXferPage (t : Nat) (n : Fin 16) (miso : List Word) (s : State) : Host.Outcome State Fault Refusal :=
  act t (runJhp n.val 0x0803 (fixed 8) (fun p => bindOk p && u8 p 1 < 2 && zeroAt 3 1 p) 1 (xferPageBody n.val miso)) s

/-- SPIM_RESET (12, R350). -/
def execSpimReset (t : Nat) (n : Fin 16) (s : State) : Host.Outcome State Fault Refusal :=
  act t (runJhp n.val 0x0804 (fixed 4) (zeroAt 1 3) 2 spimResetBody) s

/-- SPIM_STATUS (12, R349). -/
def execSpimStatus (t : Nat) (n : Fin 16) (s : State) : Host.Outcome State Fault Refusal :=
  act t (runJhp n.val 0x0805 (fixed 4) (zeroAt 1 3) 0 spimStatusBody) s

/-- XIP_CONFIG (12, R358). -/
def execXipConfig (t : Nat) (n : Fin 16) (s : State) : Host.Outcome State Fault Refusal :=
  act t (runJhp n.val 0x0810 (fixed 4) (fun p => u8 p 0 % 16 == 0) 2 xipConfigBody) s

/-- SPIM_XIP_COPY (12, R354). -/
def execSpimXipCopy (t : Nat) (n : Fin 16) (flash : List Byte) (s : State) : Host.Outcome State Fault Refusal :=
  act t (runJhp n.val 0x0811 (fixed 12) (fun p => zeroAt 5 1 p && zeroAt 10 2 p) 1 (xipCopyBody n.val flash)) s

/-- SPIM_TRANSFER_DONE (12, R350). -/
def execSpimTransferDone (t : Nat) (p : Fin 3) (s : State) : Host.Outcome State Fault Refusal := act t (xferDone p.val) s

/-- SPIM_HOLD_TIMEOUT (12, R345). -/
def execSpimHoldTimeout (t : Nat) (p : Fin 3) (s : State) : Host.Outcome State Fault Refusal := act t (holdExpired p.val) s

/-- XIP_COPY_DONE (12, R354). -/
def execXipCopyDone (t : Nat) (s : State) : Host.Outcome State Fault Refusal := act t copyDone s

end Sys2Proof.Machine
end

