-- ==== Sys2Proof/Machine/StageCmds.lean ====
section
/-! DEFINITION. The commands of the output stage, the placer, lamp diagnostics and the pattern engines within a shed (03, 04, 06, 08;
opcode_table.json, rows PWM_PERIOD_END to ENGINE_CHECKPOINT). -/

namespace Sys2Proof.Machine

open Sys2Proof

/-- A sink's overvoltage cut-off acts in the pulse of site `row`, `ch` (03, R92). -/
def sinkCut (k ch row : Nat) (s : State) : State :=
  let d := getShed s k
  let lead := leadSite d (128 * row + ch)
  if d.drive.off || !pulsesNow d lead then s
  else
    -- the pulse in progress: those of the period that have ended come before it
    let mine := ((planSite d lead).map fun x => x.pulses.filter fun p => p.1 == d.drive.period).getD []
    let n := (mine.filter fun p => p.2.1 + p.2.2 ≤ clockNow s.now d).length
    let c := getChan d ch
    setShed k (setChan ch { c with ov := c.ov + 1, cuts := c.cuts ++ [(row, min n (mine.length - 1))] } d) s

/-- A scan switch that the frame commands on trips (03, R97). -/
def switchTrip (k r : Nat) (s : State) : State :=
  let d := getShed s k
  if (switchPlan d r).isNone then s else setShed k (setSwitch r { getSwitch d r with tripped := true } d) s

/-- A booster channel trips (03, R106). -/
def boosterTrip (k n : Nat) (s : State) : State :=
  let d := getShed s k
  if d.drive.off || cf d.cfgDrv (R.xcCfg + n) 31 31 = 0 then s
  else setShed k (setBooster n { getBooster d n with tripped := true } d) s

/-- A debounce that is complete takes effect (08, R230, R235). -/
def debounced (k : Nat) (o : DiagObj) (s : State) : State :=
  match o with
  | .site i off => completeSite k i off s
  | .switch r => completeSwitch k r s
  | .booster n => completeBooster k n s

/-- Unpaid probe debt of a site is dropped (08, R242). -/
def dropDebt (k i : Nat) (s : State) : State :=
  let d := getShed s k
  let x := getSite d i
  if x.debt = 0 || markAtOrAfter x.debtTo d.frame then s
  else bumpReg k R.diagSt 17 12 (setShed k (setSite i { x with debt := 0 } d) s)

/-- One engine of a shed changes. -/
def onEngine (k e : Nat) (f : Img → Nat → Engine → Engine) (s : State) : State :=
  let d := getShed s k
  if (Table.find? d.engines e).isNone then s else setShed k (setEngine e (f d.front (shedInterval d) (getEngine d e)) d) s

/-- The checkpoints of a shed that has joined (06, R193), every sixteen frames. -/
def checkpoint (k : Nat) (s : State) : State :=
  let d := getShed s k
  if d.frame.toNat % 16 ≠ 0 || !(getLink s k).trained || !decide (d.mode = .joined) || d.resync || s.power.fail.isSome then s
  else toYard k (.event (.checkpoints d.frame ((d.engines.filter fun p => p.2.st ≠ .idle).map fun p => checkpointOf p.1 d.frame p.2))) s

/-- The next mark is expected in `d` nanoseconds or less: 1,000 µs at the placement start point, 100 µs at the deadline (04, R126). -/
def within (d k : Nat) (s : State) : Bool :=
  let x := getShed s k
  x.markAt + shedInterval x ≤ s.now + d

/-- PWM_PERIOD_END (03, R111). -/
def execPwmPeriodEnd (t : Nat) (k : Fin 7) (obs : PeriodObs) (s : State) : Host.Outcome State Fault Refusal :=
  actOn k t (periodEnd k obs) s

/-- TRIM_DROPOUT (03, R111). -/
def execTrimDropout (t : Nat) (k : Fin 7) (g : Fin 4) (s : State) : Host.Outcome State Fault Refusal :=
  actOn k t (setDropout k g) s

/-- PLACEMENT_START (04, R126). -/
def execPlacementStart (t : Nat) (k : Fin 7) (s : State) : Host.Outcome State Fault Refusal :=
  actOn k t (fun s => if (getShed s k).drive.placing.isSome || (getShed s k).drive.next.isSome || !within ms k s then s
    else placementStart k s) s

/-- PLACER_DONE (04, R130). -/
def execPlacerDone (t : Nat) (k : Fin 7) (us : Nat) (parityOk : Bool) (s : State) : Host.Outcome State Fault Refusal :=
  actOn k t (placerEnd k us parityOk) s

/-- PLACER_DEADLINE (04, R134). -/
def execPlacerDeadline (t : Nat) (k : Fin 7) (s : State) : Host.Outcome State Fault Refusal :=
  actOn k t (fun s => if within (100 * us) k s then placerLate k s else s) s

/-- SPREAD_TO_LEVEL (04, R133). -/
def execSpreadToLevel (t : Nat) (k : Fin 7) (g : Fin 4) (s : State) : Host.Outcome State Fault Refusal :=
  actOn k t (returnLevel k g) s

/-- SINK_OVERVOLTAGE (03, R92). -/
def execSinkOvervoltage (t : Nat) (k : Fin 7) (ch : Fin 128) (row : Fin 16) (s : State) : Host.Outcome State Fault Refusal :=
  actOn k t (sinkCut k ch row) s

/-- SCAN_OVERCURRENT_TRIP (03, R97). -/
def execScanOvercurrentTrip (t : Nat) (k : Fin 7) (r : Fin 16) (s : State) : Host.Outcome State Fault Refusal :=
  actOn k t (switchTrip k r) s

/-- BOOSTER_OVERCURRENT (03, R106). -/
def execBoosterOvercurrent (t : Nat) (k : Fin 7) (n : Fin 8) (s : State) : Host.Outcome State Fault Refusal :=
  actOn k t (boosterTrip k n) s

/-- DEBOUNCE_COMPLETE (08, R230). -/
def execDebounceComplete (t : Nat) (k : Fin 7) (o : DiagObj) (s : State) : Host.Outcome State Fault Refusal :=
  actOn k t (debounced k o) s

/-- FRESHNESS_EXPIRY (08, R231). -/
def execFreshnessExpiry (t : Nat) (k : Fin 7) (i : Fin 2048) (off : Bool) (s : State) : Host.Outcome State Fault Refusal :=
  actOn k t (expireSite k i off) s

/-- PROBE_DEBT_DROP (08, R242). -/
def execProbeDebtDrop (t : Nat) (k : Fin 7) (i : Fin 2048) (s : State) : Host.Outcome State Fault Refusal :=
  actOn k t (dropDebt k i) s

/-- KEYFRAME_END (06, R174). The EMIT it raises goes with the frame's FRAME_STATUS (R189). -/
def execKeyframeEnd (t : Nat) (k : Fin 7) (e : Fin 16) (s : State) : Host.Outcome State Fault Refusal :=
  actOn k t (onEngine k e fun m _ g => (keyEnd m e g).1) s

/-- PHASE_DELAY_END (06, R181). -/
def execPhaseDelayEnd (t : Nat) (k : Fin 7) (e : Fin 16) (s : State) : Host.Outcome State Fault Refusal :=
  actOn k t (onEngine k e fun m tf g => phaseEnd m e tf g) s

/-- FADE_END (06, R182). -/
def execFadeEnd (t : Nat) (k : Fin 7) (e : Fin 16) (s : State) : Host.Outcome State Fault Refusal :=
  actOn k t (onEngine k e fun _ _ g => fadeEndOp g) s

/-- ENGINE_CHECKPOINT (06, R193). -/
def execEngineCheckpoint (t : Nat) (k : Fin 7) (s : State) : Host.Outcome State Fault Refusal := actOn k t (checkpoint k) s

end Sys2Proof.Machine
end

