-- ==== Sys2Proof/Machine/Dispatch.lean ====
section
/-! DEFINITION. What every command does: one arm per command, each a call of its meaning. -/

namespace Sys2Proof.Machine

open Sys2Proof

def exec (i : Instr) (s : State) : Host.Outcome State Fault Refusal :=
  match i with
  | .markWordSend t copy => Sys2Proof.Machine.execMarkWordSend t copy s
  | .yardFrameMark t => Sys2Proof.Machine.execYardFrameMark t s
  | .mark t k err fire count => Sys2Proof.Machine.execMark t k err fire count s
  | .shedMarkFire t k => Sys2Proof.Machine.execShedMarkFire t k s
  | .freeRunMark t k => Sys2Proof.Machine.execFreeRunMark t k s
  | .greyClockLock t k => Sys2Proof.Machine.execGreyClockLock t k s
  | .linkLatencyCalibration t k lat => Sys2Proof.Machine.execLinkLatencyCalibration t k lat s
  | .linkTrained t k lat r => Sys2Proof.Machine.execLinkTrained t k lat r s
  | .linkTrainAttempt t k => Sys2Proof.Machine.execLinkTrainAttempt t k s
  | .write t k seq err => Sys2Proof.Machine.execWrite t k seq err s
  | .readReq t k seq err => Sys2Proof.Machine.execReadReq t k seq err s
  | .readData t k seq err => Sys2Proof.Machine.execReadData t k seq err s
  | .prepare t k seq err => Sys2Proof.Machine.execPrepare t k seq err s
  | .prepareOk t k seq err => Sys2Proof.Machine.execPrepareOk t k seq err s
  | .prepareFail t k seq err => Sys2Proof.Machine.execPrepareFail t k seq err s
  | .frameStatus t k seq err => Sys2Proof.Machine.execFrameStatus t k seq err s
  | .event t k seq err => Sys2Proof.Machine.execEvent t k seq err s
  | .commit t k seq err => Sys2Proof.Machine.execCommit t k seq err s
  | .abort t k seq err => Sys2Proof.Machine.execAbort t k seq err s
  | .patCtl t k seq err => Sys2Proof.Machine.execPatCtl t k seq err s
  | .derate t k seq err => Sys2Proof.Machine.execDerate t k seq err s
  | .failOff t k seq err => Sys2Proof.Machine.execFailOff t k seq err s
  | .govern t k seq err => Sys2Proof.Machine.execGovern t k seq err s
  | .round t k seq err => Sys2Proof.Machine.execRound t k seq err s
  | .fallback t k seq err => Sys2Proof.Machine.execFallback t k seq err s
  | .inject t k seq err => Sys2Proof.Machine.execInject t k seq err s
  | .ack t k atYard err upTo => Sys2Proof.Machine.execAck t k atYard err upTo s
  | .nak t k atYard err expected => Sys2Proof.Machine.execNak t k atYard err expected s
  | .heartbeat t k atYard err => Sys2Proof.Machine.execHeartbeat t k atYard err s
  | .idleWord t k atYard err => Sys2Proof.Machine.execIdleWord t k atYard err s
  | .heartbeatSend t k atYard => Sys2Proof.Machine.execHeartbeatSend t k atYard s
  | .heartbeatTimeout t k atYard => Sys2Proof.Machine.execHeartbeatTimeout t k atYard s
  | .retryTimeout t k atYard => Sys2Proof.Machine.execRetryTimeout t k atYard s
  | .pwmPeriodEnd t k obs => Sys2Proof.Machine.execPwmPeriodEnd t k obs s
  | .trimDropout t k g => Sys2Proof.Machine.execTrimDropout t k g s
  | .placementStart t k => Sys2Proof.Machine.execPlacementStart t k s
  | .placerDone t k us parityOk => Sys2Proof.Machine.execPlacerDone t k us parityOk s
  | .placerDeadline t k => Sys2Proof.Machine.execPlacerDeadline t k s
  | .spreadToLevel t k g => Sys2Proof.Machine.execSpreadToLevel t k g s
  | .sinkOvervoltage t k ch row => Sys2Proof.Machine.execSinkOvervoltage t k ch row s
  | .scanOvercurrentTrip t k r => Sys2Proof.Machine.execScanOvercurrentTrip t k r s
  | .boosterOvercurrent t k n => Sys2Proof.Machine.execBoosterOvercurrent t k n s
  | .debounceComplete t k o => Sys2Proof.Machine.execDebounceComplete t k o s
  | .freshnessExpiry t k ix off => Sys2Proof.Machine.execFreshnessExpiry t k ix off s
  | .probeDebtDrop t k ix => Sys2Proof.Machine.execProbeDebtDrop t k ix s
  | .keyframeEnd t k e => Sys2Proof.Machine.execKeyframeEnd t k e s
  | .phaseDelayEnd t k e => Sys2Proof.Machine.execPhaseDelayEnd t k e s
  | .fadeEnd t k e => Sys2Proof.Machine.execFadeEnd t k e s
  | .engineCheckpoint t k => Sys2Proof.Machine.execEngineCheckpoint t k s
  | .shedRoundComplete t k r => Sys2Proof.Machine.execShedRoundComplete t k r s
  | .retestEvaluation t => Sys2Proof.Machine.execRetestEvaluation t s
  | .ltCalCaptureEnd t => Sys2Proof.Machine.execLtCalCaptureEnd t s
  | .housekeepingRound t => Sys2Proof.Machine.execHousekeepingRound t s
  | .nvDeferredWrite t => Sys2Proof.Machine.execNvDeferredWrite t s
  | .armedRecordRewrite t => Sys2Proof.Machine.execArmedRecordRewrite t s
  | .overtempTrip t die => Sys2Proof.Machine.execOvertempTrip t die s
  | .deferredHotWrite t => Sys2Proof.Machine.execDeferredHotWrite t s
  | .hotRecordVerify t readOk rewriteOk => Sys2Proof.Machine.execHotRecordVerify t readOk rewriteOk s
  | .verdictMapPublish t => Sys2Proof.Machine.execVerdictMapPublish t s
  | .functionStateTableUpdate t => Sys2Proof.Machine.execFunctionStateTableUpdate t s
  | .deviceStatusPageUpdate t => Sys2Proof.Machine.execDeviceStatusPageUpdate t s
  | .commitRoundStart t => Sys2Proof.Machine.execCommitRoundStart t s
  | .commitTimeout t => Sys2Proof.Machine.execCommitTimeout t s
  | .supplyValid t => Sys2Proof.Machine.execSupplyValid t s
  | .crystalStable t => Sys2Proof.Machine.execCrystalStable t s
  | .pwrEnStartup t => Sys2Proof.Machine.execPwrEnStartup t s
  | .stableLoadRetry t => Sys2Proof.Machine.execStableLoadRetry t s
  | .firmwareStart t => Sys2Proof.Machine.execFirmwareStart t s
  | .powerOnReset t => Sys2Proof.Machine.execPowerOnReset t s
  | .railBrownout t => Sys2Proof.Machine.execRailBrownout t s
  | .resetNAssert t width => Sys2Proof.Machine.execResetNAssert t width s
  | .resetNRelease t => Sys2Proof.Machine.execResetNRelease t s
  | .watchdogExpiry t => Sys2Proof.Machine.execWatchdogExpiry t s
  | .powerFailDetected t => Sys2Proof.Machine.execPowerFailDetected t s
  | .powerFailFlushDone t => Sys2Proof.Machine.execPowerFailFlushDone t s
  | .vbatReturn t lowest => Sys2Proof.Machine.execVbatReturn t lowest s
  | .dipResume t => Sys2Proof.Machine.execDipResume t s
  | .nwIdleTimeout t => Sys2Proof.Machine.execNwIdleTimeout t s
  | .nwFlushDone t => Sys2Proof.Machine.execNwFlushDone t s
  | .wakePinEvent t p => Sys2Proof.Machine.execWakePinEvent t p s
  | .linkEnergyDetected t => Sys2Proof.Machine.execLinkEnergyDetected t s
  | .wakeTimerExpiry t => Sys2Proof.Machine.execWakeTimerExpiry t s
  | .wakeFrame t payload => Sys2Proof.Machine.execWakeFrame t payload s
  | .wakeFrameWindowExpiry t => Sys2Proof.Machine.execWakeFrameWindowExpiry t s
  | .pwrEnWakeRise t => Sys2Proof.Machine.execPwrEnWakeRise t s
  | .sessionOpen t src => Sys2Proof.Machine.execSessionOpen t src s
  | .sessionClose t n => Sys2Proof.Machine.execSessionClose t n s
  | .sessionKeepalive t n => Sys2Proof.Machine.execSessionKeepalive t n s
  | .sessionChallenge t n => Sys2Proof.Machine.execSessionChallenge t n s
  | .sessionAuth t n => Sys2Proof.Machine.execSessionAuth t n s
  | .sessionDrop t n => Sys2Proof.Machine.execSessionDrop t n s
  | .sessionEvents t n => Sys2Proof.Machine.execSessionEvents t n s
  | .sessionInfo t n => Sys2Proof.Machine.execSessionInfo t n s
  | .pageTake t n => Sys2Proof.Machine.execPageTake t n s
  | .pageRelease t n => Sys2Proof.Machine.execPageRelease t n s
  | .pageLock t n => Sys2Proof.Machine.execPageLock t n s
  | .pageUnlock t n => Sys2Proof.Machine.execPageUnlock t n s
  | .fnAcquire t n => Sys2Proof.Machine.execFnAcquire t n s
  | .fnRelease t n => Sys2Proof.Machine.execFnRelease t n s
  | .leaseExpiry t n => Sys2Proof.Machine.execLeaseExpiry t n s
  | .doorbellRing t n => Sys2Proof.Machine.execDoorbellRing t n s
  | .doorbellPendingCopy t n => Sys2Proof.Machine.execDoorbellPendingCopy t n s
  | .replyAcknowledge t n => Sys2Proof.Machine.execReplyAcknowledge t n s
  | .winDataWrite t w => Sys2Proof.Machine.execWinDataWrite t w s
  | .winDataRead t => Sys2Proof.Machine.execWinDataRead t s
  | .frontRegisterWrite t reg w => Sys2Proof.Machine.execFrontRegisterWrite t reg w s
  | .spitStatus t mosi part => Sys2Proof.Machine.execSpitStatus t mosi part s
  | .regRead t mosi part => Sys2Proof.Machine.execRegRead t mosi part s
  | .regWrite t mosi part => Sys2Proof.Machine.execRegWrite t mosi part s
  | .mbxWrite t mosi part => Sys2Proof.Machine.execMbxWrite t mosi part s
  | .mbxRead t mosi part => Sys2Proof.Machine.execMbxRead t mosi part s
  | .winWrite t mosi part => Sys2Proof.Machine.execWinWrite t mosi part s
  | .winRead t mosi part => Sys2Proof.Machine.execWinRead t mosi part s
  | .spitRefusedType t mosi part => Sys2Proof.Machine.execSpitRefusedType t mosi part s
  | .ethernetFrame t f => Sys2Proof.Machine.execEthernetFrame t f s
  | .learnedEntryAgeOut t mac vid => Sys2Proof.Machine.execLearnedEntryAgeOut t mac vid s
  | .t1LinkUp t => Sys2Proof.Machine.execT1LinkUp t s
  | .t1LinkDown t => Sys2Proof.Machine.execT1LinkDown t s
  | .plcaCycle t => Sys2Proof.Machine.execPlcaCycle t s
  | .nodePresenceTimeout t node => Sys2Proof.Machine.execNodePresenceTimeout t node s
  | .arpRequest t r => Sys2Proof.Machine.execArpRequest t r s
  | .icmpEchoRequest t r => Sys2Proof.Machine.execIcmpEchoRequest t r s
  | .jhpCommandDatagram t d => Sys2Proof.Machine.execJhpCommandDatagram t d s
  | .jhpAckDatagram t d => Sys2Proof.Machine.execJhpAckDatagram t d s
  | .replyResend t n => Sys2Proof.Machine.execReplyResend t n s
  | .windowWriteDatagram t d => Sys2Proof.Machine.execWindowWriteDatagram t d s
  | .windowReadDatagram t d => Sys2Proof.Machine.execWindowReadDatagram t d s
  | .windowReadDelayedCopy t => Sys2Proof.Machine.execWindowReadDelayedCopy t s
  | .canJhpCommandFrame t c f => Sys2Proof.Machine.execCanJhpCommandFrame t c f s
  | .canJhpAckFrame t c f => Sys2Proof.Machine.execCanJhpAckFrame t c f s
  | .canReplyResend t n => Sys2Proof.Machine.execCanReplyResend t n s
  | .canDataFrame t c f => Sys2Proof.Machine.execCanDataFrame t c f s
  | .canBusOff t c tec => Sys2Proof.Machine.execCanBusOff t c tec s
  | .canBusOffRecovered t c => Sys2Proof.Machine.execCanBusOffRecovered t c s
  | .canErrPassive t c tec rc => Sys2Proof.Machine.execCanErrPassive t c tec rc s
  | .canValueTimeout t c ix => Sys2Proof.Machine.execCanValueTimeout t c ix s
  | .canStatusTx t c ix => Sys2Proof.Machine.execCanStatusTx t c ix s
  | .canMapLoad t n => Sys2Proof.Machine.execCanMapLoad t n s
  | .canRestart t n => Sys2Proof.Machine.execCanRestart t n s
  | .spimConfig t n => Sys2Proof.Machine.execSpimConfig t n s
  | .spimXfer t n miso => Sys2Proof.Machine.execSpimXfer t n miso s
  | .spimXferPage t n miso => Sys2Proof.Machine.execSpimXferPage t n miso s
  | .spimReset t n => Sys2Proof.Machine.execSpimReset t n s
  | .spimStatus t n => Sys2Proof.Machine.execSpimStatus t n s
  | .xipConfig t n => Sys2Proof.Machine.execXipConfig t n s
  | .spimXipCopy t n flash => Sys2Proof.Machine.execSpimXipCopy t n flash s
  | .spimTransferDone t p => Sys2Proof.Machine.execSpimTransferDone t p s
  | .spimHoldTimeout t p => Sys2Proof.Machine.execSpimHoldTimeout t p s
  | .xipCopyDone t => Sys2Proof.Machine.execXipCopyDone t s
  | .nop t g => Sys2Proof.Machine.execNop t g s
  | .br t g pins => Sys2Proof.Machine.execBr t g pins s
  | .hold t g pins => Sys2Proof.Machine.execHold t g pins s
  | .sho t g => Sys2Proof.Machine.execSho t g s
  | .shi t g pins => Sys2Proof.Machine.execShi t g pins s
  | .lvl t g => Sys2Proof.Machine.execLvl t g s
  | .dir t g => Sys2Proof.Machine.execDir t g s
  | .ld t g pins => Sys2Proof.Machine.execLd t g pins s
  | .give t g => Sys2Proof.Machine.execGive t g s
  | .take t g => Sys2Proof.Machine.execTake t g s
  | .flag t g => Sys2Proof.Machine.execFlag t g s
  | .paddockEventAccept t ev => Sys2Proof.Machine.execPaddockEventAccept t ev s
  | .pkTxQueueMove t g => Sys2Proof.Machine.execPkTxQueueMove t g s
  | .pkRxQueueMove t g => Sys2Proof.Machine.execPkRxQueueMove t g s
  | .pkLoad t n => Sys2Proof.Machine.execPkLoad t n s
  | .pkStore t n => Sys2Proof.Machine.execPkStore t n s
  | .pkPinConfig t n => Sys2Proof.Machine.execPkPinConfig t n s
  | .pkStart t n => Sys2Proof.Machine.execPkStart t n s
  | .pkStop t n => Sys2Proof.Machine.execPkStop t n s
  | .pkReset t n => Sys2Proof.Machine.execPkReset t n s
  | .pkPush t n => Sys2Proof.Machine.execPkPush t n s
  | .pkPull t n => Sys2Proof.Machine.execPkPull t n s
  | .pkStatus t n => Sys2Proof.Machine.execPkStatus t n s
  | .sceneCommit t n => Sys2Proof.Machine.execSceneCommit t n s
  | .sceneRecall t n => Sys2Proof.Machine.execSceneRecall t n s
  | .sceneReadback t n => Sys2Proof.Machine.execSceneReadback t n s
  | .sceneStore t n => Sys2Proof.Machine.execSceneStore t n s
  | .patLoad t n => Sys2Proof.Machine.execPatLoad t n s
  | .patStart t n => Sys2Proof.Machine.execPatStart t n s
  | .patStop t n => Sys2Proof.Machine.execPatStop t n s
  | .patTrigger t n => Sys2Proof.Machine.execPatTrigger t n s
  | .patReset t n => Sys2Proof.Machine.execPatReset t n s
  | .patStatus t n => Sys2Proof.Machine.execPatStatus t n s
  | .fnClear t n => Sys2Proof.Machine.execFnClear t n s
  | .ltRead t n => Sys2Proof.Machine.execLtRead t n s
  | .ltCalCapture t n => Sys2Proof.Machine.execLtCalCapture t n s
  | .ltCalStatus t n => Sys2Proof.Machine.execLtCalStatus t n s
  | .ltCalCommit t n => Sys2Proof.Machine.execLtCalCommit t n s
  | .ltCalWrite t n => Sys2Proof.Machine.execLtCalWrite t n s
  | .thermClear t n => Sys2Proof.Machine.execThermClear t n s
  | .nwEnter t n => Sys2Proof.Machine.execNwEnter t n s
  | .logCursor t n => Sys2Proof.Machine.execLogCursor t n s
  | .logFetch t n => Sys2Proof.Machine.execLogFetch t n s
  | .logFlush t n => Sys2Proof.Machine.execLogFlush t n s
  | .logClear t n => Sys2Proof.Machine.execLogClear t n s
  | .logSetWall t n => Sys2Proof.Machine.execLogSetWall t n s
  | .logRateSet t n => Sys2Proof.Machine.execLogRateSet t n s
  | .tackFetch t n => Sys2Proof.Machine.execTackFetch t n s
  | .lampReset t n => Sys2Proof.Machine.execLampReset t n s
  | .logFlushPeriodic t => Sys2Proof.Machine.execLogFlushPeriodic t s
  | .logFlushUrgent t => Sys2Proof.Machine.execLogFlushUrgent t s
  | .tackSnapshotWrite t => Sys2Proof.Machine.execTackSnapshotWrite t s
  | .accountingSave t => Sys2Proof.Machine.execAccountingSave t s
  | .operatingSecond t => Sys2Proof.Machine.execOperatingSecond t s
  | .nvItemWrite t verifyOk => Sys2Proof.Machine.execNvItemWrite t verifyOk s
  | .fwStatus t n => Sys2Proof.Machine.execFwStatus t n s
  | .fwInstallBegin t n => Sys2Proof.Machine.execFwInstallBegin t n s
  | .fwInstallWrite t n => Sys2Proof.Machine.execFwInstallWrite t n s
  | .fwInstallFinish t n => Sys2Proof.Machine.execFwInstallFinish t n s
  | .fwInstallAbort t n => Sys2Proof.Machine.execFwInstallAbort t n s
  | .fwActivate t n => Sys2Proof.Machine.execFwActivate t n s
  | .fwSvnRaise t n => Sys2Proof.Machine.execFwSvnRaise t n s
  | .cfgRead t n => Sys2Proof.Machine.execCfgRead t n s
  | .cfgWrite t n => Sys2Proof.Machine.execCfgWrite t n s
  | .cfgSave t n => Sys2Proof.Machine.execCfgSave t n s
  | .idRead t n => Sys2Proof.Machine.execIdRead t n s
  | .keyNonce t n => Sys2Proof.Machine.execKeyNonce t n s
  | .keySet t n => Sys2Proof.Machine.execKeySet t n s
  | .keyStatus t n => Sys2Proof.Machine.execKeyStatus t n s
  | .warmReset t n => Sys2Proof.Machine.execWarmReset t n s
  | .shedReset t n => Sys2Proof.Machine.execShedReset t n s
  | .portReset t n => Sys2Proof.Machine.execPortReset t n s
  | .faultStatus t n => Sys2Proof.Machine.execFaultStatus t n s
  | .faultClear t n => Sys2Proof.Machine.execFaultClear t n s
  | .faultInject t n => Sys2Proof.Machine.execFaultInject t n s
  | .linkStatus t n => Sys2Proof.Machine.execLinkStatus t n s
  | .faultRaise t det die => Sys2Proof.Machine.execFaultRaise t det die s
  | .resetShadowEnd t b => Sys2Proof.Machine.execResetShadowEnd t b s
  | .injectionTimeout t => Sys2Proof.Machine.execInjectionTimeout t s
  | .scrubPass t m corrections bad => Sys2Proof.Machine.execScrubPass t m corrections bad s
  | .sramTestWordRead t => Sys2Proof.Machine.execSramTestWordRead t s
  | .cryptoSelfTestDone t pass => Sys2Proof.Machine.execCryptoSelfTestDone t pass s
  | .spitPartialCommandByte t bits => Sys2Proof.Machine.execSpitPartialCommandByte t bits s
  | .wakePinInactive t p => Sys2Proof.Machine.execWakePinInactive t p s
  | .nwOscillatorInBand t => Sys2Proof.Machine.execNwOscillatorInBand t s
  | .yardRoundConversionsComplete t r => Sys2Proof.Machine.execYardRoundConversionsComplete t r s

end Sys2Proof.Machine
end

