-- ==== Sys2Proof/Machine/IoLines.lean ====
section
/-! DEFINITION. The data lines SPIM_0_IO0 to SPIM_0_IO3 (12, R343, R351, R352, Tables 12.8, 12.9): what each shows at the model's instant. -/

namespace Sys2Proof.Machine

open Sys2Proof

/-- Lines at rest while the port runs: MOSI low, MISO an input, IO2 and IO3 high (Table 12.9). -/
def restLine (i : Nat) : IoLine := if i = 0 then .low else if i = 1 then .released else .high

/-- Lines of an ordinary transfer (Table 12.1, R352). -/
def xferLine (i : Nat) : IoLine := if i = 0 then .data else restLine i

/-- Lines that a data phase of FORM `f` uses (Table 12.8). -/
def dataLine (f i : Nat) : Bool := match f with | 0 => i == 1 | 1 => i < 2 | _ => i < 4

/-- Clocks before the dummy clocks: opcode, address, mode byte (R351). -/
def sentClocks (c : Word) : Nat :=
  let div := fun (n : Nat) => if c.fld 27 26 == 3 then n / 4 else n
  8 + div (if c.bit 25 then 32 else 24) + (if c.bit 12 then div 8 else 0)

/-- Time in a line's read at which clock `n` has its first launching edge: the edge after which a bit stands on the line (Table 12.2). For
the clock after the last address or mode bit it is the falling edge of R352. -/
def launchAt (tim : Word) (mode n : Nat) : Nat := (tim.fld 23 16 + 1 + 2 * n - (1 - mode % 2)) * halfClock tim

/-- A line at `x` ns into a read with XIP_CFG `c` and the binding `tim` in `mode`. -/
def readLine (c tim : Word) (mode x i : Nat) : IoLine :=
  let f := c.fld 27 26
  let select := (2 * lineClocks c - 1 + tim.fld 23 16 + 1 + tim.fld 15 8 + 1) * halfClock tim
  if select ≤ x then restLine i
  else if launchAt tim mode (sentClocks c) ≤ x && dataLine f i then .released
  else if f = 3 && launchAt tim mode 8 ≤ x then .data
  else xferLine i

/-- Time since the select of the line that is being read fell, for a copy's lines and the time they have had. -/
def lineOffset (lt : Nat) : List Nat → (left : Nat) → (buf : List Nat) → Option Nat
  | [], _, _ => none
  | l :: r, left, buf =>
    if buf.contains l then lineOffset lt r left buf
    else if left < lt then some left
    else lineOffset lt r (left - lt) ((l :: buf).take 4)

/-- What line `i` of SPIM_0 shows now. -/
def ioLine (s : State) (i : Nat) : IoLine :=
  if s.power.mode = .nightWatch || !s.power.vio then .unpowered
  else if [Phase.held, .released, .clocked].contains s.power.phase then (if i = 0 then .pullDown else if i = 1 then .released else .pullUp)
  else
    let running := match (getSpim s 0).xfer with | some x => decide (x.start ≤ s.now) | none => false
    if running then xferLine i
    else
      match s.xip.copy with
      | none => restLine i
      | some k =>
        let c := reg s yardDie R.xipCfg
        let sel := c.fld 30 28
        match lineOffset (lineTime s) (copyLines k) (s.now - k.start) s.xip.lines with
        | some x => readLine c (bindTim s 0 sel) (fmtMode (bindFmt s 0 sel)) x i
        | none => restLine i

end Sys2Proof.Machine
end

