-- ==== Sys2Proof/Safety.lean ====
section
/-! DEFINITION. What counts as safe here, and the terms that the claims use: the parts of the state, what a command leaves of
them, where a JHP command stands in its mailbox and what its reply leaves there. -/

namespace Sys2Proof

open Sys2Proof.Machine

/-- The command names no die that the variant lacks (00, Table 0.1). -/
def onPresentDie (s : State) (c : Instr) : Bool :=
  match c.shedOf with
  | some k => isPresent s k
  | none => true

/-- Every waiting command names a die that exists. -/
def queueSafe (s : State) : Bool := s.pending.all (onPresentDie s)

/-- FAIL_N is driven at the level that 08 R251 gives for the present state. -/
def failLevelTrue (s : State) : Prop := s.power.failLevel = failN s

/-- The parts of the state. `flags` is IRQ_FLAGS, `front` the other front registers. -/
inductive StatePart where
  | clock | queue | variant | free | regs | power | marks | links | sheds | sess | mbx | fns | win | front | flags | scene | pat
  | diag | lt | therm | net | can | spim | xip | pk | log | faults | store | authFails | entries | turn
  deriving DecidableEq, Repr

/-- A part is the same in both states. -/
def StatePart.eqv (s u : State) : StatePart → Prop
  | .clock => u.now = s.now
  | .queue => u.pending = s.pending
  | .variant => u.variant = s.variant
  | .free => u.free = s.free
  | .regs => u.regs = s.regs
  | .power => u.power = s.power
  | .marks => u.marks = s.marks
  | .links => u.links = s.links
  | .sheds => u.sheds = s.sheds
  | .sess => u.sess = s.sess
  | .mbx => u.mbx = s.mbx
  | .fns => u.fns = s.fns
  | .win => u.win = s.win
  | .front => { u.front with irqFlags := s.front.irqFlags } = s.front
  | .flags => u.front.irqFlags = s.front.irqFlags
  | .scene => u.scene = s.scene
  | .pat => u.pat = s.pat
  | .diag => u.diag = s.diag
  | .lt => u.lt = s.lt
  | .therm => u.therm = s.therm
  | .net => u.net = s.net
  | .can => u.can = s.can
  | .spim => u.spim = s.spim
  | .xip => u.xip = s.xip
  | .pk => u.pk = s.pk
  | .log => u.log = s.log
  | .faults => u.faults = s.faults
  | .store => u.store = s.store
  | .authFails => u.authFails = s.authFails
  | .entries => u.nextEntry = s.nextEntry
  | .turn => u.turn = s.turn

/-- `u` differs from `s` in the listed parts at most. -/
def leaves (l : List StatePart) (s u : State) : Prop := ∀ q : StatePart, q ∉ l → q.eqv s u

/-- A part is the same after a command: what every command settles apart, which is the level of FAIL_N and its flag
(Table 10.14), the idle instant (02, R63) and the instant since which something waits for a round (05, R155). -/
def StatePart.same (s u : State) : StatePart → Prop
  | .clock => True
  | .power => { u.power with failLevel := s.power.failLevel, idleSince := s.power.idleSince } = s.power
  | .scene => { u.scene with heldSince := s.scene.heldSince } = s.scene
  | .flags => u.front.irqFlags = if u.power.failLevel = s.power.failLevel then s.front.irqFlags else s.front.irqFlags ||| 4
  | q => q.eqv s u

/-- A command at instant `t` changes the listed parts at most, and moves the clock to its instant. -/
def changesOnly (l : List StatePart) (t : Nat) (s u : State) : Prop := u.now = max s.now t ∧ ∀ q : StatePart, q ∉ l → q.same s u

/-- The command answers a next state of which `P` holds. -/
def leads (c : Instr) (s : State) (P : State → Prop) : Prop := ∃ u, exec c s = .next u ∧ P u

/-- Entry `e` is the oldest of MBX_n that waits, with opcode `op`, nothing of the yard holds it, and the mailbox has its turn; the firmware
serves and the session is open; and no waiting entry of any mailbox carries an unknown opcode, which could be answered in the same step (10, R286 to R288, R291). -/
def inTurn (s : State) (n op : Nat) (e : Entry) : Prop :=
  headEntry s n = some e ∧ e.opcode = op ∧ s.power.ready = true ∧ (getSess s n).isOpen = true ∧ mayBegin s n = true
    ∧ entryHeld s e = false ∧ ∀ j, ∀ y ∈ (getMbx s j).queue, y.st = .waiting → knownOpcode y.opcode = true

/-- The general checks of 10 R291 pass: payload length, FLAGS and reserved bytes, and the least privilege. -/
def wellPut (s : State) (n : Nat) (e : Entry) (len : Nat) (rsvd : List Byte → Bool) (priv : Nat) : Prop :=
  e.len = len ∧ len ≤ 56 ∧ e.flags < 2 ∧ rsvd e.payload = true ∧ priv ≤ (getSess s n).priv.rank

/-- The state in which a JHP command acts: its instant has come and its entry has begun (10, R287). -/
def begun (t n : Nat) (e : Entry) (s : State) : State :=
  takeTurn n (setMbx n { getMbx (atTime t s) n with
    queue := (getMbx (atTime t s) n).queue.map fun y => if y.id = e.id then { y with st := .begun } else y } (atTime t s))

/-- What a reply shows (10, Table 10.5), with the entry it answers. -/
def shown (x : Item) : Nat × Nat × Nat × Nat × Nat × List Byte := (x.entry, x.opcode, x.tag, x.code, x.detail, x.payload)

/-- The entry that a reply to `e` answers: `e`, since the identities of a queue's entries differ. -/
def answeredBy (s : State) (n : Nat) (e : Entry) : Entry :=
  ((getMbx s n).queue.find? fun y => y.id == e.id).getD e

/-- MBX_n after the reply to `e`: the reply joins the replies and the entry ends, or a POSTED command that ends OK leaves no
reply and frees its entry (10, R286, R289, Table 10.3). -/
def replied (s u : State) (n : Nat) (e : Entry) (code detail : Nat) (payload : List Byte) : Prop :=
  let m := getMbx s n
  let m' := getMbx u n
  let y := answeredBy s n e
  if y.flags % 2 = 1 ∧ code = 0 then
    m'.replies.map shown = m.replies.map shown ∧ m'.queue = m.queue.filter (·.id ≠ e.id)
  else
    m'.replies.map shown = m.replies.map shown ++ [(e.id, y.opcode, y.tag, code, detail, payload)]
    ∧ m'.queue = m.queue.map fun y => if y.id = e.id then { y with st := .ended } else y

/-- Nothing else of the mailboxes changes with a reply of MBX_n. -/
def mailKept (s u : State) (n : Nat) : Prop :=
  (∀ j, j ≠ n → getMbx u j = getMbx s j) ∧ (getMbx u n).slot = (getMbx s n).slot ∧ (getMbx u n).bell = (getMbx s n).bell
    ∧ (getMbx u n).events = (getMbx s n).events ∧ (getMbx u n).lost = (getMbx s n).lost ∧ (getMbx u n).evSeq = (getMbx s n).evSeq

/-- How a JHP command stands in 17, Tables 17.1 to 17.5: its mailbox and instant, its opcode, the length of its payload, its reserved
fields, and its least privilege. -/
structure JhpForm where
  mbx : Nat
  at_ : Nat
  op : Nat
  len : State → List Byte → Nat
  rsvd : List Byte → Bool
  priv : Nat

/-- The form of every JHP command but SESSION_OPEN, which finds its mailbox by its source. -/
def jhpForm : Instr → Option JhpForm
  | .logCursor t n => some ⟨n, t, 0x0601, (fun _ => fixed 8), (zeroAt 1 3), 0⟩
  | .logFetch t n => some ⟨n, t, 0x0602, (fun _ => fixed 4), (zeroAt 3 1), 0⟩
  | .logFlush t n => some ⟨n, t, 0x0603, (fun _ => fixed 0), noRsvd, 1⟩
  | .logClear t n => some ⟨n, t, 0x0604, (fun _ => fixed 0), noRsvd, 2⟩
  | .logSetWall t n => some ⟨n, t, 0x0605, (fun _ => fixed 4), noRsvd, 1⟩
  | .logRateSet t n => some ⟨n, t, 0x0606, (fun _ p => 4 + 2 * u8 p 2), (zeroAt 3 1), 2⟩
  | .tackFetch t n => some ⟨n, t, 0x0610, (fun _ => fixed 4), (zeroAt 1 1), 0⟩
  | .lampReset t n => some ⟨n, t, 0x0620, (fun _ => fixed 4), (zeroAt 1 3), 2⟩
  | .sessionClose t n => some ⟨n, t, 0x0102, (fun _ => fixed 0), noRsvd, 0⟩
  | .sessionKeepalive t n => some ⟨n, t, 0x0103, (fun _ => fixed 0), noRsvd, 0⟩
  | .sessionChallenge t n => some ⟨n, t, 0x0104, (fun _ => fixed 4), (zeroAt 1 3), 0⟩
  | .sessionAuth t n => some ⟨n, t, 0x0105, (fun _ => fixed 36), (zeroAt 1 3), 0⟩
  | .sessionDrop t n => some ⟨n, t, 0x0106, (fun _ => fixed 4), (zeroAt 1 3), 0⟩
  | .sessionEvents t n => some ⟨n, t, 0x0107, (fun _ => fixed 4), (fun p => eventsOk 0 p && zeroAt 2 2 p), 0⟩
  | .sessionInfo t n => some ⟨n, t, 0x0108, (fun _ => fixed 0), noRsvd, 0⟩
  | .pageTake t n => some ⟨n, t, 0x0110, (fun _ => fixed 4), (zeroAt 2 2), 0⟩
  | .pageRelease t n => some ⟨n, t, 0x0111, (fun _ => fixed 4), (zeroAt 2 2), 0⟩
  | .pageLock t n => some ⟨n, t, 0x0112, (fun _ => fixed 4), (zeroAt 1 3), 2⟩
  | .pageUnlock t n => some ⟨n, t, 0x0113, (fun _ => fixed 4), (zeroAt 1 3), 2⟩
  | .fnAcquire t n => some ⟨n, t, 0x0210, (fun _ => fixed 36), (zeroAt 33 3), 1⟩
  | .fnRelease t n => some ⟨n, t, 0x0211, (fun _ => fixed 32), noRsvd, 0⟩
  | .fwInstallBegin t n => some ⟨n, t, 0x0A02, (fun _ => fixed 4), noRsvd, 2⟩
  | .fwInstallWrite t n => some ⟨n, t, 0x0A03, (fun _ => fixed 4), (zeroAt 1 1), 2⟩
  | .fwInstallFinish t n => some ⟨n, t, 0x0A04, (fun _ => fixed 0), noRsvd, 2⟩
  | .fwInstallAbort t n => some ⟨n, t, 0x0A05, (fun _ => fixed 0), noRsvd, 2⟩
  | .fwActivate t n => some ⟨n, t, 0x0A06, (fun _ => fixed 4), (zeroAt 1 3), 2⟩
  | .fwSvnRaise t n => some ⟨n, t, 0x0A07, (fun _ => fixed 0), noRsvd, 2⟩
  | .cfgRead t n => some ⟨n, t, 0x0A10, (fun _ => fixed 4), noRsvd, 0⟩
  | .cfgWrite t n => some ⟨n, t, 0x0A11, (fun _ p => 4 + 4 * u8 p 3), noRsvd, 1⟩
  | .cfgSave t n => some ⟨n, t, 0x0A12, (fun _ => fixed 0), noRsvd, 2⟩
  | .idRead t n => some ⟨n, t, 0x0A20, (fun _ => fixed 4), (zeroAt 1 3), 0⟩
  | .keyNonce t n => some ⟨n, t, 0x0A21, (fun _ => fixed 0), noRsvd, 2⟩
  | .keySet t n => some ⟨n, t, 0x0A22, (fun _ => fixed 52), (zeroAt 2 2), 0⟩
  | .keyStatus t n => some ⟨n, t, 0x0A23, (fun _ => fixed 0), noRsvd, 0⟩
  | .warmReset t n => some ⟨n, t, 0x0A30, (fun _ => fixed 0), noRsvd, 2⟩
  | .shedReset t n => some ⟨n, t, 0x0A31, (fun _ => fixed 4), (zeroAt 1 3), 2⟩
  | .portReset t n => some ⟨n, t, 0x0A32, (fun _ => fixed 4), (zeroAt 1 3), 2⟩
  | .faultStatus t n => some ⟨n, t, 0x0B01, (fun _ => fixed 4), (zeroAt 2 2), 0⟩
  | .faultClear t n => some ⟨n, t, 0x0B02, (fun _ => fixed 4), (zeroAt 2 2), 1⟩
  | .faultInject t n => some ⟨n, t, 0x0B03, (fun _ => fixed 8), (fun p => zeroAt 3 1 p && zeroAt 6 2 p), 2⟩
  | .linkStatus t n => some ⟨n, t, 0x0B04, (fun _ => fixed 4), (fun p => u8 p 1 / 2 == 0 && zeroAt 2 2 p), 0⟩
  | .canRestart t n => some ⟨n, t, 0x0902, (fun _ => fixed 4), (zeroAt 1 3), 1⟩
  | .pkLoad t n => some ⟨n, t, 0x0701, (fun _ => fixed 4), (zeroAt 2 2), 2⟩
  | .pkStore t n => some ⟨n, t, 0x0702, (fun _ => fixed 4), (zeroAt 2 2), 2⟩
  | .pkPinConfig t n => some ⟨n, t, 0x0703, (fun _ => fixed 48), pinsOk, 2⟩
  | .pkStart t n => some ⟨n, t, 0x0704, (fun _ => fixed 4), (zeroAt 2 2), 1⟩
  | .pkStop t n => some ⟨n, t, 0x0705, (fun _ => fixed 4), (zeroAt 2 2), 1⟩
  | .pkReset t n => some ⟨n, t, 0x0706, (fun _ => fixed 4), (zeroAt 1 3), 1⟩
  | .pkPush t n => some ⟨n, t, 0x0707, (fun _ p => 4 + 4 * u8 p 1), (zeroAt 2 2), 1⟩
  | .pkPull t n => some ⟨n, t, 0x0708, (fun _ => fixed 4), (zeroAt 2 2), 1⟩
  | .pkStatus t n => some ⟨n, t, 0x0709, (fun _ => fixed 4), (zeroAt 1 3), 0⟩
  | .nwEnter t n => some ⟨n, t, 0x0502, (fun _ => fixed 0), noRsvd, 1⟩
  | .sceneCommit t n => some ⟨n, t, 0x0201, (fun _ => fixed 12), commitRsvd, 1⟩
  | .sceneRecall t n => some ⟨n, t, 0x0202, (fun _ => fixed 8), (zeroAt 2 2), 1⟩
  | .sceneReadback t n => some ⟨n, t, 0x0203, (fun _ => fixed 4), (fun p => u8 p 3 == 0 && u8 p 0 / 32 == 0), 0⟩
  | .sceneStore t n => some ⟨n, t, 0x0204, (fun _ => fixed 4), (zeroAt 2 2), 2⟩
  | .patLoad t n => some ⟨n, t, 0x0301, (fun _ => fixed 16), (fun p => u8 p 14 / 2 == 0 && u8 p 15 == 0), 2⟩
  | .patStart t n => some ⟨n, t, 0x0302, (fun _ => fixed 20), (fun p => u8 p 14 / 2 == 0 && u8 p 15 == 0), 1⟩
  | .patStop t n => some ⟨n, t, 0x0303, (fun _ => fixed 20), (fun p => u8 p 14 / 4 == 0 && u8 p 15 == 0), 1⟩
  | .patTrigger t n => some ⟨n, t, 0x0304, (fun _ => fixed 8), (fun p => u8 p 1 / 2 == 0 && zeroAt 2 2 p), 1⟩
  | .patReset t n => some ⟨n, t, 0x0305, (fun _ => fixed 16), (zeroAt 14 2), 1⟩
  | .patStatus t n => some ⟨n, t, 0x0306, (fun _ => fixed 4), (zeroAt 2 2), 0⟩
  | .fnClear t n => some ⟨n, t, 0x0401, (fun _ => fixed 4), (zeroAt 1 3), 0⟩
  | .ltRead t n => some ⟨n, t, 0x0410, (fun _ => fixed 4), noRsvd, 0⟩
  | .ltCalCapture t n => some ⟨n, t, 0x0411, (fun _ => fixed 8), (zeroAt 5 1), 2⟩
  | .ltCalStatus t n => some ⟨n, t, 0x0412, (fun _ => fixed 4), noRsvd, 0⟩
  | .ltCalCommit t n => some ⟨n, t, 0x0413, (fun _ => fixed 8), (fun p => zeroAt 1 1 p && zeroAt 6 2 p), 2⟩
  | .ltCalWrite t n => some ⟨n, t, 0x0414, (fun _ => fixed 8), (zeroAt 6 2), 2⟩
  | .thermClear t n => some ⟨n, t, 0x0501, (fun _ => fixed 0), noRsvd, 1⟩
  | .spimConfig t n => some ⟨n, t, 0x0801, (fun _ => fixed 12), configOk, 1⟩
  | .spimReset t n => some ⟨n, t, 0x0804, (fun _ => fixed 4), (zeroAt 1 3), 2⟩
  | .spimStatus t n => some ⟨n, t, 0x0805, (fun _ => fixed 4), (zeroAt 1 3), 0⟩
  | .xipConfig t n => some ⟨n, t, 0x0810, (fun _ => fixed 4), (fun p => u8 p 0 % 16 == 0), 2⟩
  | .canMapLoad t n => some ⟨n, t, 0x0901, (fun _ => fixed 4), (zeroAt 2 2), 2⟩
  | .fwStatus t n => some ⟨n, t, 0x0A01, (fun _ => fixed 0), noRsvd, 0⟩
  | .spimXfer t n _ => some ⟨n, t, 0x0802, xferLen, (fun p => bindOk p && u8 p 1 < 2 && zeroAt 3 1 p), 1⟩
  | .spimXferPage t n _ => some ⟨n, t, 0x0803, (fun _ => fixed 8), (fun p => bindOk p && u8 p 1 < 2 && zeroAt 3 1 p), 1⟩
  | .spimXipCopy t n _ => some ⟨n, t, 0x0811, (fun _ => fixed 12), (fun p => zeroAt 5 1 p && zeroAt 10 2 p), 1⟩
  | _ => none

/-- A JHP command completes: in its turn, well put, and where `guard` holds of the entry and of the state in which it acts, it
answers OK with the payload `pay`, and changes the parts `l` at most beside its reply, as `eff` says. -/
def completes (c : Instr) (t n op len : Nat) (rsvd : List Byte → Bool) (priv : Nat) (guard : Entry → State → Prop)
    (pay : Entry → State → List Byte) (l : List StatePart) (eff : Entry → State → State → Prop) : Prop :=
  ∀ e s, inTurn s n op e → wellPut s n e len rsvd priv → guard e (begun t n e s) →
    leads c s fun u => replied s u n e 0 0 (pay e (begun t n e s)) ∧ mailKept s u n ∧ changesOnly (.mbx :: .net :: .turn :: l) t s u
      ∧ eff e (begun t n e s) u

/-- A JHP command is taken and answers later: under the same conditions its entry has begun, nothing else of the mailboxes changes, and
the parts `l` change at most, as `eff` says. -/
def defers (c : Instr) (t n op len : Nat) (rsvd : List Byte → Bool) (priv : Nat) (guard : Entry → State → Prop)
    (l : List StatePart) (eff : Entry → State → State → Prop) : Prop :=
  ∀ e s, inTurn s n op e → wellPut s n e len rsvd priv → guard e (begun t n e s) →
    leads c s fun u => (∀ j, getMbx u j = getMbx (begun t n e s) j) ∧ changesOnly (.mbx :: .turn :: l) t s u ∧ eff e (begun t n e s) u

/-- Pages that a command has taken are DEVICE for its session, and the other pages are as before (10, R296). -/
def takenPages (b u : State) (n : Nat) (ps : List Nat) : Prop :=
  (∀ p ∈ ps, (getOwn u p).owner = .device ∧ (getOwn u p).session = n) ∧ ∀ p, p ∉ ps → getOwn u p = getOwn b p

/-- Session `n` has closed, or session 0 is as new: nothing waits in its mailbox, no function is driven by it, no page is HOST to
it, and it installs nothing (10, R279, R280). -/
def sessionEnded (s u : State) (n : Nat) : Prop :=
  getSess u n = (if n = 0 then sessionZero s else Session.init)
    ∧ getMbx u n = { getMbx s n with queue := [], bell := false, replies := [], events := [], lost := 0 }
    ∧ (∀ f, (getFn u f).holder ≠ .session n) ∧ (∀ p, ¬ ((getOwn u p).owner = .host ∧ (getOwn u p).session = n))
    ∧ ∀ i, u.store.install = some i → i.sess ≠ n

/-- Every entry of a table but that of key `k` is the same. -/
def elsewhere {α : Type} (f : State → Nat → α) (s u : State) (k : Nat) : Prop := ∀ j, j ≠ k → f u j = f s j

/-- No guard, and no effect beside the reply. -/
def always (_ : Entry) (_ : State) : Prop := True
def nothing (_ : Entry) (_ _ : State) : Prop := True

/-- Where LOG_CURSOR puts the cursor (14, R396). -/
def cursorTarget (s : State) (kind v : Nat) : Nat :=
  match kind with
  | 0 => oldestVisible s
  | 1 => s.log.nextSeq
  | 2 => v
  | _ => match (logView s).find? fun r => r.1.opS ≥ v with
    | some r => r.1.seq
    | none => s.log.nextSeq

/-- The records from session `n`'s cursor on, and what LOG_FETCH takes of them: records, and the SEQ of the last one examined. -/
def fromCursor (s : State) (n : Nat) : List (LogRec × Bool) := (logView s).filter fun r => !seqBefore r.1.seq (getSess s n).cursor
def fetched (s : State) (n : Nat) (e : Entry) : List (LogRec × Bool) × Nat := takeRecs (u8 e.payload 2) (u8 e.payload 1) 0 (fromCursor s n)

/-- The cursor after LOG_FETCH (14, R397). -/
def fetchCursor (s : State) (n : Nat) (e : Entry) : Nat :=
  if (fetched s n e).2 = 0 then (getSess s n).cursor else seqNext (fetched s n e).2

/-- The body that LOG_FETCH writes from offset 4 of its page (14, Table 14.6). -/
def fetchBytes (s : State) (n : Nat) (e : Entry) : List Byte :=
  le 1 n ++ le 1 (fetched s n e).1.length ++ zeros 2
    ++ le 4 (match fromCursor s n with | r :: _ => r.1.seq | [] => (getSess s n).cursor) ++ le 4 (fetchCursor s n e)
    ++ le 4 (newestSeq s) ++ le 4 s.log.clearSeq ++ le 4 s.log.ring.length ++ zeros 4 ++ (fetched s n e).1.flatMap fun r => recBytes r.1 r.2

/-! Events. -/

/-- An event happens: it answers a next state, changes the parts `l` at most, and `eff` says what it leaves of the state at its
instant. -/
def happens (c : Instr) (t : Nat) (l : List StatePart) (s : State) (eff : State → State → Prop) : Prop :=
  leads c s fun u => changesOnly l t s u ∧ eff (atTime t s) u

/-- MBX_n takes a command from its slot: service and session are open, an entry is free, and no waiting opcode is unknown, that of the
slot among them (10, R286, R291). -/
def takesCommand (s : State) (n : Nat) : Prop :=
  s.power.ready = true ∧ (getSess s n).isOpen = true ∧ (getMbx s n).queue.length < 4
    ∧ ∀ j, ∀ y ∈ (getMbx s j).queue ++ (if j = n then [slotEntry (getMbx s n) s.nextEntry] else []), y.st = .waiting → knownOpcode y.opcode = true

/-- The command slot of MBX_n has become its youngest entry (10, R286). -/
def slotCopied (b u : State) (n : Nat) : Prop :=
  getMbx u n = { getMbx b n with queue := (getMbx b n).queue ++ [slotEntry (getMbx b n) b.nextEntry], bell := false }
    ∧ u.nextEntry = b.nextEntry + 1 ∧ elsewhere getMbx b u n

/-- A mailbox's events once nothing else is staged: the first carries the LOST count (10, R290). -/
def eventsStaged (lost : Nat) : List Item → List Item
  | e :: es => (if e.staged then e else stampLost lost e) :: es
  | [] => []

/-- The staged item of MBX_n has gone, with the entry that a reply answers, and the next item is staged (10, R286, R289, R290). -/
def itemGone (b u : State) (n : Nat) : Prop :=
  let m := getMbx b n
  let m' := getMbx u n
  let stagedAs := fun (rs evs : List Item) => m'.replies.map shown = rs.map shown
    ∧ m'.events.map shown = (if rs = [] then eventsStaged m.lost evs else evs).map shown
  (match m.replies with
    | r :: rs => stagedAs rs m.events ∧ m'.queue = m.queue.filter (·.id ≠ r.entry)
    | [] => stagedAs [] (m.events.drop 1) ∧ m'.queue = m.queue)
  ∧ elsewhere getMbx b u n

/-- The controller was reset warmly: the firmware is down, the sessions but session 0 are closed, what waited for the firmware is gone, and the sheds are as they were (02, R75, R76). -/
def warmlyReset (s u : State) (cause : Nat) : Prop :=
  u.power.fw = false ∧ u.power.ready = false ∧ u.power.warm = true ∧ yf u R.rstCause cause cause = 1
    ∧ (∀ n < 16, n ≠ 0 → (getSess u n).isOpen = false) ∧ u.scene.waiting = [] ∧ u.store.queue = [] ∧ u.lt.capture = none ∧ u.therm.retest = none
    ∧ u.win.delayed = [] ∧ (∀ p, (getOwn u p).owner ≠ .device) ∧ (∀ g < 16, (getLane u g).st = .stopped) ∧ u.power.phase = s.power.phase

/-- The front registers but IRQ_FLAGS read as in `x`. -/
def frontAs (u : State) (x : Front) : Prop := { u.front with irqFlags := x.irqFlags } = x

/-- A session's write into a page it holds as HOST has landed (10, R297). -/
def pageWritten (b u : State) (p off : Nat) (bytes : List Byte) : Prop :=
  u.win.mem = Table.putAll 0 b.win.mem (4096 * p + off) bytes ∧ getOwn u p = { getOwn b p with dirty := true } ∧ elsewhere getOwn b u p
    ∧ u.win.ownGen = if (getOwn b p).dirty then b.win.ownGen else (b.win.ownGen + 2) % 2 ^ 32

/-- The bytes of a SPIT transaction, a partial one with them (10, R303). -/
def spitBytes (m : List Byte) (part : Fin 8) : Nat := m.length + if part.val = 0 then 0 else 1

/-- A SPIT transaction of type `typ` is served whole: its command byte is of the type, the yard is out of reset, R301 refuses
nothing, and the declared length has arrived (10, R301, R302). -/
def spitWhole (s : State) (typ : Nat) (m : List Byte) : Prop :=
  m ≠ [] ∧ u8 m 0 / 32 = typ ∧ s.power.phase ≠ .held ∧ spitRefused s typ m = false ∧ spitDeclared typ m ≤ m.length

/-- The state in which a whole transaction acts: SPIT sessions renewed, OVER counted (10, R278, Table 10.18). -/
def spitActs (b : State) (typ : Nat) (m : List Byte) (part : Fin 8) : State :=
  countOver (spitBytes m part - spitDeclared typ m) (renewSpit b)

/-- The front registers after a transaction that answers `out` behind its status byte. -/
def spitAnswers (b u : State) (m : List Byte) (part : Fin 8) (out : List Byte) (err : Bool) : Prop :=
  frontAs u { b.front with miso := padTo (spitBytes m part) (statusByte b :: out), frameErr := err }

/-- VID of the firmware's own traffic (11, R316). -/
def cpuVid (s : State) : Nat := yf s R.ipMisc 25 14

/-- What the firmware sends by port `p` leaves: no power-fail, the CPU's VLAN includes the CPU port and this one, and the port runs (02, R81;
11, R312, R313, R316). -/
def ownGoes (s : State) (p : Nat) : Prop :=
  s.power.fail = none ∧ inVlan s 2 (cpuVid s) = true ∧ inVlan s p (cpuVid s) = true ∧ (if p = 0 then t1On s else t1sOn s) = true

/-- The firmware's message `m` left by port 0, or waits in port 1 for the coordinator's opportunity (11, R313). -/
def ownSent (b u : State) (p : Nat) (m : OwnMsg) : Prop :=
  let o := NetOut.own p (if untags b p (cpuVid b) then none else some (cpuVid b)) m
  let q := Table.get [] b.net.egress 1
  u.net.out = (if p = 0 then o :: b.net.out else b.net.out) ∧ Table.get [] u.net.egress 1 = if p = 0 then q else q ++ [(false, o)]

/-- A datagram to `ip` leaves by port `p`: the address is in the prefix, or a gateway is set (11, R320). -/
def mayReach (s : State) (p : Nat) (ip : Word) : Prop := ownGoes s p ∧ (inPrefix s ip = true ∨ reg s yardDie R.ipGw ≠ 0)

/-- The firmware takes a packet from the port (11, R319, R320). -/
def cpuTakes (s : State) (p : Fin 2) : Prop := portUp s p = true ∧ s.power.fw = true

/-- A command slot that arrives for MBX_n (10, R286). -/
def slotPut (n : Nat) (bytes : List Byte) (s : State) : State :=
  setMbx n { getMbx s n with slot := Table.putAll 0 (getMbx s n).slot 0 (padTo 64 bytes) } s

/-- The mailbox answers OK where it still holds the entry `id`, not posted, and not ended (10, R286, R289). -/
def answeredOk (b u : State) (n id : Nat) (payload : List Byte) : Prop :=
  ∀ e, (getMbx b n).queue.find? (fun e => e.id == id && e.st ≠ .ended) = some e → e.flags % 2 = 0 →
    (getMbx u n).replies.map shown = (getMbx b n).replies.map shown ++ [(id, e.opcode, e.tag, 0, 0, payload)]

/-- The instruction at the lane's PC runs and changes its lane alone (13, R359, R360). -/
def laneTurns (c : Instr) (t g : Nat) (s : State) (f : Word → Lane → Lane) : Prop :=
  happens c t [.pk] s fun b u => getLane u g = f (laneWord b g) (getLane b g) ∧ elsewhere getLane b u g ∧ u.pk.engines = b.pk.engines
    ∧ u.pk.raised = b.pk.raised

/-- The lane goes on to the next word, or stalls (13, R360). -/
def goesOn (x : Lane) : Lane := { x with pc := (x.pc + 1) % 512, st := .running }

/-- The lane stands at its word (13, R360). -/
def stalls (x : Lane) : Lane := { x with st := .stalled }

/-- The power state but FAIL_N's level and the idle instant reads as in `x`. -/
def powerAs (u : State) (x : Power) : Prop := { u.power with failLevel := x.failLevel, idleSince := x.idleSince } = x

/-- Every register but one is as before. -/
def regsKept (b u : State) (die r : Nat) : Prop := ∀ d n, regKey d n ≠ regKey die r → reg u d n = reg b d n

/-- Everything but the Night Watch domain, MRAM and the verdicts is as at reset (02, Table 2.8). -/
def yardCleared (b u : State) : Prop :=
  leaves [.clock, .queue, .variant, .free, .entries, .store, .log, .net, .therm, .fns, .regs, .power, .sheds, .win, .flags] State.reset u
    ∧ u.power.phase = .held ∧ u.power.fw = false ∧ u.power.ready = false ∧ u.power.stable = false ∧ u.store.items = b.store.items
    ∧ (∀ r ∈ nightRegs, r ≠ R.rstCause → r ≠ R.nwTimer → reg u yardDie r = reg b yardDie r) ∧ ∀ r, r ∉ nightRegs → reg u yardDie r = regInit r

/-- The yard's release at once: every supply valid, no reset held, and the yard still in its reset (02, R46). -/
def mayRelease (s : State) : Prop :=
  suppliesValid s = true ∧ s.power.resetFlush = false ∧ s.power.phase = .held ∧ s.power.mode = .startup

/-- The yard is released: with the Cold Wait flag set, STEPS begins at 8 (02, R46; 09, R269). -/
def releasedAs (b u : State) (x : Power) : Prop :=
  powerAs u { x with phase := .released, validAt := b.now } ∧ regsKept b u yardDie R.thermSt
    ∧ yf u R.thermSt 15 12 = if yf b R.rstCause 8 8 = 1 then 8 else yf b R.thermSt 15 12

/-- No WAKE pin that NW_CFG enables and that wakes by its level is active (02, R63, Table 2.6). -/
def noPinHeld (s : State) : Prop :=
  ∀ p < 4, wakeEnabled s p = true → s.power.wakeActive.toNat.testBit p = true → (reg s yardDie R.nwWake).bit (8 * p + 6) = true

/-- The wake source `src` is recorded and PWR_EN is to rise, with the power state else as in `x` (02, R65, R69). -/
def wakesBy (b u : State) (src : Nat) (x : Power) : Prop :=
  powerAs u { x with wakePending := true, check := none } ∧ regsKept b u yardDie R.rstCause ∧ yf u R.rstCause 19 16 = src

/-- In Night Watch with PWR_EN low and no wake under way (02, R65). -/
def asleep (s : State) : Prop :=
  s.power.mode = .nightWatch ∧ s.power.entry = none ∧ s.power.wakePending = false ∧ s.power.pwrEn = false

/-- The full start of R65 from a running check: the source, the wake flag, the count of checks cleared. -/
def startsFrom (u : State) (src : Nat) : Prop :=
  u.power.mode = .startup ∧ u.power.check = none ∧ yf u R.rstCause 4 4 = 1 ∧ yf u R.rstCause 19 16 = src ∧ yf u R.nwTimer 31 24 = 0

/-- Trigger `n`, which is valid, has been raised: its controls are kept for the marks and sheds they name (06, R188, R193). -/
def raisedAs (b u : State) (n : Nat) : Prop :=
  u.pat.since = ((trigEngines (trigEntry b n)).filter fun i => isPresent b (i / 16)).foldl
    (fun l i => keepControl i ⟨i % 16, trigAct (trigEntry b n), trigImm (trigEntry b n), controlMark b, 0⟩ l) b.pat.since

/-- Packet `p` waits, or is outstanding, at an end: it is sent (01, R34, R35). -/
def sentOn (u : State) (k : Nat) (atYard : Bool) (p : Packet) : Prop :=
  p ∈ (getEnd u k atYard).waiting ∨ ∃ o ∈ (getEnd u k atYard).out, o.pkt = p

/-- Packet `p` is the next that the end of link `k` takes, under the sequence number `seq`, and no injection spoils it (01, R35; 15, Table
15.9). -/
def packetComes (s : State) (k : Nat) (atYard : Bool) (seq : Nat) (p : Packet) : Prop :=
  isPresent s k = true ∧ (getLink s k).trained = true ∧ (∃ o, (getEnd s k (!atYard)).out.find? (fun o => o.seq == seq) = some o ∧ o.pkt = p)
    ∧ (getEnd s k atYard).rxSeq = seq ∧ ∀ i, s.faults.injection = some i → i.shed = k → i.checker ≠ if atYard then 5 else 4

/-- It is taken: the next sequence number is expected, and the heartbeat timer begins again (01, R35, R37). -/
def packetTaken (b u : State) (k : Nat) (atYard : Bool) (seq : Nat) : Prop :=
  (getEnd u k atYard).rxSeq = (seq + 1) % 256 ∧ (getEnd u k atYard).lastRx = b.now

/-- Control word `c` comes to an end of a trained link (01, R33). -/
def ctlComes (b : State) (k : Nat) (atYard : Bool) (c : Ctl) : Prop :=
  isPresent b k = true ∧ (getLink b k).trained = true ∧ (takeCtl c (freeHeld b.now (getEnd b k (!atYard))).ctl).isSome = true

/-- A shed's event is sent, or kept while the shed's link is down (01, R38). -/
def reported (u : State) (k : Nat) (e : ShedEvent) : Prop :=
  if (getLink u k).trained = true then sentOn u k false (.event e) else e ∈ (getShed u k).held_events

/-- The entry of a lamp site in the verdict map: the low half of its byte for an even site (08, R243). -/
def mapEntry (s : State) (n : Nat) : Nat :=
  let b := (winByte s (siteByte n).1 (siteByte n).2).toNat
  if n % 2 = 0 then b % 16 else b / 16

end Sys2Proof
end

