-- ==== Sys2Proof/Certificates/Slice0/Obligations.lean ====
section
/-! DEFINITION. The statements for the provers. A JHP command is stated by `completes` and `leads` (Sys2Proof/Safety.lean):
under its guard it answers a next state with its reply and its effect, and changes the listed parts of the state at most. -/

open Sys2Proof Sys2Proof.Machine

/-! The block. -/

/-- One step with command `c` in front of the queue is `c` on the state with the queue's rest. -/
def Obligations.StepRunsFrontCommand : Prop :=
  ∀ (c : Instr) (r : List Instr) (s : State), step { s with pending := c :: r } = exec c { s with pending := r }

/-- The block idles on an empty queue (log entry 4). -/
def Obligations.EmptyQueueIdles : Prop := ∀ s : State, s.pending = [] → step s = .next s

/-- No row of the opcode table has bits: no word spells a command, and placing one changes nothing. -/
def Obligations.NoWordSpellsACommand : Prop :=
  ∀ (nbits w : Nat) (s : State), decodeTableWord nbits w = none ∧ s.withFetchWord nbits w = s

/-- After a step of a waiting command FAIL_N is driven as the state demands, whatever it was before; and an idle step keeps it
so: the level is true in every state that a step leaves from a state in which it is true (08, R251). -/
def Obligations.FailLevelInvariant : Prop :=
  ∀ s s' : State, step s = .next s' → (s.pending ≠ [] ∨ failLevelTrue s) → failLevelTrue s'

/-- FAIL_N's level is true at reset. -/
def Obligations.FailLevelTrueAtReset : Prop := failLevelTrue State.reset

/-- No command changes the family member or the rest of the queue, and none sets the clock back. -/
def Obligations.CommandsKeepQueueVariantAndClock : Prop :=
  ∀ (c : Instr) (s u : State), exec c s = .next u → u.pending = s.pending ∧ u.variant = s.variant ∧ s.now ≤ u.now

/-- A command stops with a fault exactly where it names a shed that the family member does not have (00, Table 0.1), and no
command is refused. -/
def Obligations.FaultsExactlyOnAbsentSheds : Prop :=
  ∀ (c : Instr) (s : State),
    (onPresentDie s c = true → ∃ u, exec c s = .next u)
    ∧ (onPresentDie s c = false → ∃ k, c.shedOf = some k ∧ exec c s = .fault (.absentShed k))

/-- A queue that names only dies that exist runs on: the step answers a next state whose queue does so too. -/
def Obligations.SafeQueuesKeepRunning : Prop :=
  ∀ s : State, queueSafe s = true → ∃ s', step s = .next s' ∧ queueSafe s' = true

/-! Sessions (10). -/

/-- SESSION_KEEPALIVE, SESSION_INFO, SESSION_EVENTS and SESSION_DROP. -/
def Obligations.SessionQueriesComplete : Prop :=
  ∀ (t : Nat) (n : Fin 16),
    completes (.sessionKeepalive t n) t n 0x0103 0 noRsvd 0 always (fun _ b => le 4 (leaseLeft b n)) [] nothing
    ∧ completes (.sessionInfo t n) t n 0x0108 0 noRsvd 0 always
        (fun _ b => le 1 n ++ le 1 (getSess b n).priv.rank ++ le 1 (Source.transport (getSess b n).src) ++ [0] ++ le 4 (leaseLeft b n)
          ++ le 2 (violCount b n) ++ le 2 (drivenBy b n).length ++ le 2 (hostPages b n).length ++ [0, 0]) [] nothing
    ∧ completes (.sessionEvents t n) t n 0x0107 4 (fun p => eventsOk 0 p && zeroAt 2 2 p) 0 always (fun _ _ => []) [.sess]
        (fun e b u => getSess u n = { getSess b n with events := BitVec.ofNat 16 (u16 e.payload 0) } ∧ elsewhere getSess b u n)
    ∧ completes (.sessionDrop t n) t n 0x0106 4 (zeroAt 1 3) 0 (fun e b => u8 e.payload 0 < (getSess b n).priv.rank)
        (fun e _ => [BitVec.ofNat 8 (u8 e.payload 0), 0, 0, 0]) [.sess]
        (fun e b u => getSess u n = { getSess b n with priv := privOf (u8 e.payload 0) } ∧ elsewhere getSess b u n)

/-- SESSION_CHALLENGE issues a nonce, whose bytes are free values (log entry 13), and SESSION_AUTH with the right HMAC raises the
session's privilege and uses the nonce up. -/
def Obligations.SessionAuthenticationCompletes : Prop :=
  ∀ (t : Nat) (n : Fin 16),
    completes (.sessionChallenge t n) t n 0x0104 4 (zeroAt 1 3) 0
        (fun e b => (u8 e.payload 0 = 1 ∨ u8 e.payload 0 = 2) ∧ levelKeySet b (u8 e.payload 0) = true ∧ cryptoUp b = true
          ∧ authLocked b (u8 e.payload 0) = false)
        (fun _ b => (List.range 32).map (Config.random b.free) ++ uidBytes b) [.sess, .free]
        (fun e b u => getSess u n = { getSess b n with nonce := some ⟨(List.range 32).map (Config.random b.free), u8 e.payload 0, b.now,
            levelKey b (u8 e.payload 0)⟩ } ∧ elsewhere getSess b u n ∧ u.free = b.free + 1)
    ∧ ∀ v : Nonce, completes (.sessionAuth t n) t n 0x0105 36 (zeroAt 1 3) 0
        (fun e b => cryptoUp b = true ∧ liveNonce b (getSess b n).nonce (u8 e.payload 0) = some v ∧ v.bytes ≠ []
          ∧ hmac v.key (authMessage b n (u8 e.payload 0) v.bytes) = slice e.payload 4 32
          ∧ ¬ (u8 e.payload 0 = 2 ∧ ownerElsewhere b n = true))
        (fun e _ => [BitVec.ofNat 8 (u8 e.payload 0), 0, 0, 0]) [.sess, .log]
        (fun e b u => getSess u n = { getSess b n with nonce := none, priv := privOf (u8 e.payload 0) } ∧ elsewhere getSess b u n
          ∧ u.log = (logX 0x0104 0 0 n (u8 e.payload 0) (transportOf b n) 0 b).log)

/-- PAGE_TAKE, PAGE_RELEASE, PAGE_LOCK and PAGE_UNLOCK: the owner and GEN of each page they name, and no other page's. -/
def Obligations.PageCommandsComplete : Prop :=
  ∀ (t : Nat) (n : Fin 16),
    completes (.pageTake t n) t n 0x0110 4 (zeroAt 2 2) 0
        (fun e b => pagesBad e = false ∧ ∀ p ∈ pagesNamed e, freePage b p = true ∨ holds b n p = true)
        (fun e b => (pagesNamed e).flatMap fun p => le 2 ((getOwn b p).gen + if freePage b p then 1 else 0).toNat) [.win]
        (fun e b u => ∀ p, getOwn u p = if p ∈ pagesNamed e ∧ freePage b p = true
          then ⟨.host, n, (getOwn b p).gen + 1, false, false⟩ else getOwn b p)
    ∧ completes (.pageRelease t n) t n 0x0111 4 (zeroAt 2 2) 0
        (fun e b => pagesBad e = false ∧ ∀ p ∈ pagesNamed e, holds b n p = true)
        (fun e b => (pagesNamed e).flatMap fun p => le 2 ((getOwn b p).gen + 1).toNat) [.win]
        (fun e b u => ∀ p, getOwn u p = if p ∈ pagesNamed e
          then ⟨.free, 0, (getOwn b p).gen + 1, (getOwn b p).dirty, false⟩ else getOwn b p)
    ∧ completes (.pageLock t n) t n 0x0112 4 (zeroAt 1 3) 2
        (fun e b => freePage b (u8 e.payload 0) = true ∨ holds b n (u8 e.payload 0) = true)
        (fun e b => le 2 ((getOwn b (u8 e.payload 0)).gen + 1).toNat ++ [0, 0]) [.win]
        (fun e b u => getOwn u (u8 e.payload 0)
            = ⟨.locked, n, (getOwn b (u8 e.payload 0)).gen + 1, (getOwn b (u8 e.payload 0)).dirty, false⟩
          ∧ elsewhere getOwn b u (u8 e.payload 0))
    ∧ completes (.pageUnlock t n) t n 0x0113 4 (zeroAt 1 3) 2
        (fun e b => (getOwn b (u8 e.payload 0)).owner = .locked)
        (fun e b => le 2 ((getOwn b (u8 e.payload 0)).gen + 1).toNat ++ [0, 0]) [.win]
        (fun e b u => getOwn u (u8 e.payload 0)
            = ⟨.free, 0, (getOwn b (u8 e.payload 0)).gen + 1, (getOwn b (u8 e.payload 0)).dirty, false⟩
          ∧ elsewhere getOwn b u (u8 e.payload 0))

/-- SESSION_OPEN over SPIT, and of a UDP or CAN source: the lowest free session opens for the source with its lease, the open
privilege of its transport and its event mask, and the reply is staged. -/
def Obligations.SessionOpenCompletes : Prop :=
  (∀ (t m : Nat) (e : Entry) (s : State), inTurn s 0 0x0101 e → wellPut s 0 e 4 (eventsOk 2) 0 → (getSess s 0).src = .spit →
    leaseBad (u16 e.payload 0) = false → freeSession s = some m →
    leads (.sessionOpen t .spit) s fun u =>
      replied s u 0 e 0 0 (le 1 m ++ le 1 (openPriv s 0).rank ++ [0, 0] ++ le 4 ((getSess u m).lease * 10))
      ∧ (getSess u m).isOpen = true ∧ (getSess u m).src = .spit ∧ (getSess u m).priv = openPriv s 0
      ∧ (getSess u m).lease = (if u16 e.payload 0 = 0 then yf s R.sessCfg 15 0 else u16 e.payload 0)
      ∧ (getSess u m).violMax = yf s R.sessCfg 31 24 ∧ (getSess u m).violWin = yf s R.sessCfg 23 16
      ∧ (getSess u m).events = BitVec.ofNat 16 (u16 e.payload 2) ∧ (getSess u m).last = max s.now t
      ∧ elsewhere getSess s u m ∧ changesOnly [.mbx, .net, .turn, .sess, .log] t s u)
  ∧ ∀ (t m : Nat) (src : Source) (r : OpenReq) (s : State), src ≠ .spit → s.net.opens.find? (fun r => decide (r.src = src)) = some r →
    opensHeld s = false → s.power.ready = true → r.entry.len = 4 → r.entry.flags < 2 → eventsOk 2 r.entry.payload = true → sourceSession s src = none →
    leaseBad (u16 r.entry.payload 0) = false → freeSession s = some m →
    leads (.sessionOpen t src) s fun u =>
      u.net.opens = s.net.opens.erase r
      ∧ (getMbx u m).replies.map shown = (if r.entry.flags % 2 = 1 then [] else [(0, 0x0101, r.entry.tag, 0, 0,
          le 1 m ++ le 1 (openPriv s (Source.transport src)).rank ++ le 1 (Source.transport src) ++ [0] ++ le 4 ((getSess u m).lease * 10))])
      ∧ (getSess u m).isOpen = true ∧ (getSess u m).src = src ∧ (getSess u m).priv = openPriv s (Source.transport src)
      ∧ (getSess u m).lease = (if u16 r.entry.payload 0 = 0 then yf s R.sessCfg 15 0 else u16 r.entry.payload 0)
      ∧ (getSess u m).violMax = yf s R.sessCfg 31 24 ∧ (getSess u m).violWin = yf s R.sessCfg 23 16
      ∧ (getSess u m).events = BitVec.ofNat 16 (u16 r.entry.payload 2) ∧ (getSess u m).last = max s.now t
      ∧ elsewhere getSess s u m ∧ changesOnly [.mbx, .net, .sess, .log] t s u

/-- SESSION_CLOSE, and the expiry of a lease that has run out: the session ends, and no other session changes. -/
def Obligations.SessionEndCompletes : Prop :=
  (∀ (t : Nat) (n : Fin 16) (e : Entry) (s : State), inTurn s n 0x0102 e → wellPut s n e 0 noRsvd 0 →
    leads (.sessionClose t n) s fun u => sessionEnded (atTime t s) u n ∧ elsewhere getSess s u n
      ∧ changesOnly [.turn, .sess, .mbx, .net, .flags, .fns, .scene, .win, .store, .spim, .log, .power, .regs] t s u)
  ∧ ∀ (t : Nat) (n : Fin 16) (s : State), s.power.ready = true → (getSess s n).isOpen = true →
    (getSess s n).last + (getSess s n).lease * 10000000 ≤ max s.now t →
    leads (.leaseExpiry t n) s fun u => sessionEnded (atTime t s) u n ∧ elsewhere getSess s u n
      ∧ changesOnly [.sess, .mbx, .net, .flags, .fns, .scene, .win, .store, .spim, .log, .power, .regs] t s u

/-- FN_ACQUIRE takes every named function that R292 grants; FN_RELEASE gives up those that the session drives, which the message
map retakes or which lapse. -/
def Obligations.FunctionDriversComplete : Prop :=
  ∀ (t : Nat) (n : Fin 16),
    (∀ (e : Entry) (s : State), inTurn s n 0x0210 e → wellPut s n e 36 (zeroAt 33 3) 1 →
      let granted := (maskList e.payload 0 256).filter (grants s n (u8 e.payload 32))
      leads (.fnAcquire t n) s fun u => replied s u n e 0 0 (maskBytes 32 granted)
        ∧ (∀ f, getFn u f = if f ∈ granted then { getFn s f with holder := .session n, prio := u8 e.payload 32, lapsed := false }
          else getFn s f)
        ∧ (∀ f ∈ granted, f ∉ u.scene.heldLapses ∧ Table.get 0 u.scene.heldValues f = 0)
        ∧ changesOnly [.mbx, .net, .turn, .flags, .fns, .scene] t s u)
    ∧ completes (.fnRelease t n) t n 0x0211 32 noRsvd 0 always
        (fun e b => maskBytes 32 ((maskList e.payload 0 256).filter fun f => decide ((getFn b f).holder = .session n))) [.fns, .scene, .log]
        (fun e b u => ∀ f, getFn u f =
          if f ∈ maskList e.payload 0 256 ∧ (getFn b f).holder = .session n then
            match (mapOf b f).filter (fun p => mapActive b p.1 p.2 && !(mapRun b p.1 p.2).timedOut) with
            | some p => { getFn b f with holder := .map, prio := mapPrio b p.1 p.2, lapsed := false }
            | none => { getFn b f with holder := .none, prio := 0, lapsed := true }
          else getFn b f)

/-! The general checks of JHP (10, R291). -/

/-- The first failing check of length, reserved fields and privilege gives the reply its code; the refusal is a violation, logged and
counted, and closes the session, or resets session 0, when the trailing count reaches the session's VIOL_MAX. -/
def Obligations.GeneralChecksRefuse : Prop :=
  ∀ (c : Instr) (f : JhpForm), jhpForm c = some f → ∀ (e : Entry) (s : State) (code : Nat), inTurn s f.mbx f.op e →
    ((code = 2 ∧ (56 < e.len ∨ e.len ≠ f.len s e.payload))
      ∨ (code = 3 ∧ e.len ≤ 56 ∧ e.len = f.len s e.payload ∧ (2 ≤ e.flags ∨ f.rsvd e.payload = false))
      ∨ (code = 5 ∧ e.len ≤ 56 ∧ e.len = f.len s e.payload ∧ e.flags < 2 ∧ f.rsvd e.payload = true
          ∧ (getSess s f.mbx).priv.rank < f.priv)) →
    let x := getSess s f.mbx
    let viols := (x.viols.filter fun i => decide (max s.now f.at_ < i + x.violWin * sec)) ++ [max s.now f.at_]
    (viols.length < x.violMax →
      leads c s fun u => replied s u f.mbx e code 0 (if f.op = 0x0401 then le 1 (u8 e.payload 0) ++ [0, 0xFF, 0xFF, 0, 0, 0, 0] else [])
        ∧ mailKept s u f.mbx ∧ getSess u f.mbx = { getSess s f.mbx with viols := viols } ∧ elsewhere getSess s u f.mbx
        ∧ u.log = (logX 0x0105 1 0 f.mbx code f.op 0 (atTime f.at_ s)).log ∧ changesOnly [.mbx, .net, .turn, .sess, .log] f.at_ s u)
    ∧ (x.violMax ≤ viols.length → leads c s fun u => getSess u f.mbx = (if f.mbx = 0 then sessionZero (atTime f.at_ s) else Session.init)
        ∧ (getMbx u f.mbx).queue = [] ∧ (getMbx u f.mbx).replies = [] ∧ (∀ g, (getFn u g).holder ≠ .session f.mbx)
        ∧ elsewhere getSess s u f.mbx)

/-- A JHP command whose entry is not the next of its mailbox or is held by the yard (02, R76, R86; 09, R271), whose mailbox does not have its
turn, or that comes while the firmware does not serve or the session is closed, has no effect (log entries 3, 208). -/
def Obligations.JhpOutOfTurnHasNoEffect : Prop :=
  ∀ (c : Instr) (f : JhpForm), jhpForm c = some f → ∀ s : State,
    ((headEntry s f.mbx).map (·.opcode) ≠ some f.op ∨ s.power.ready = false ∨ (getSess s f.mbx).isOpen = false
      ∨ mayBegin s f.mbx = false ∨ (headEntry s f.mbx).any (entryHeld s) = true) →
    leads c s fun u => changesOnly [] f.at_ s u

/-! Scenes, patterns, functions and lamp temperature (05 to 09). -/

/-- SCENE_COMMIT and SCENE_RECALL whose checks pass wait for a commit round, a commit with its pages taken; SCENE_READBACK returns its
pages filled; SCENE_STORE queues the write of its image. -/
def Obligations.SceneCommandsComplete : Prop :=
  ∀ (t : Nat) (n : Fin 16),
    (∀ edits : List Edit, defers (.sceneCommit t n) t n 0x0201 12 commitRsvd 1
      (fun e b =>
        let held := heldPages b n (namedPages (u8 e.payload 6 % 32) (u8 e.payload 5) (u8 e.payload 4))
        commitChecks n e.payload held (commitOpen b n) (pagesToDevice n held b) = .inr edits)
      [.win, .scene]
      (fun e b u =>
        let held := heldPages b n (namedPages (u8 e.payload 6 % 32) (u8 e.payload 5) (u8 e.payload 4))
        let at_ := if (u8 e.payload 7).testBit 0 then some (BitVec.ofNat 32 (u32 e.payload 8)) else none
        u.scene.waiting = b.scene.waiting ++ [⟨.host, n, e.id, e.tag, u32 e.payload 0, at_, b.now, edits, held⟩] ∧ takenPages b u n held))
    ∧ (∀ (copy : Nat) (body : List Byte), defers (.sceneRecall t n) t n 0x0202 8 (zeroAt 2 2) 1
      (fun e b => 1 ≤ u8 e.payload 0 ∧ u8 e.payload 0 ≤ 16 ∧ u32 e.payload 4 ≠ 0 ∧ pickCopy b (u8 e.payload 0) (imageFits b) = some (copy, body)
        ∧ commitOpen b n = false ∧ absentIn b (u8 e.payload 1) = false ∧ safeOn b = false ∧ b.power.entry = none)
      [.scene]
      (fun e b u => ∃ c : Commit, u.scene.waiting = b.scene.waiting ++ [c] ∧ c.kind = .recall ∧ c.sess = n ∧ c.entry = e.id
        ∧ c.frameId = u32 e.payload 4 ∧ c.atFrame = none ∧ c.pages = []))
    ∧ completes (.sceneReadback t n) t n 0x0203 4 (fun p => u8 p 3 == 0 && u8 p 0 / 32 == 0) 0
      (fun e b => u8 e.payload 0 ≠ 0 ∧ ¬ (pVal (u8 e.payload 0) = true ∧ 3 < u8 e.payload 2) ∧ absentIn b (u8 e.payload 1) = false
        ∧ ∀ p ∈ namedPages (u8 e.payload 0) (u8 e.payload 1) (u8 e.payload 2), holds b n p = true)
      (fun _ _ => []) [.win]
      (fun e b u => (∀ p ∈ namedPages (u8 e.payload 0) (u8 e.payload 1) (u8 e.payload 2), holds u n p = true)
        ∧ u.win.mem = (readbackFill (u8 e.payload 0) (u8 e.payload 1) (u8 e.payload 2)
            (pagesToDevice n (namedPages (u8 e.payload 0) (u8 e.payload 1) (u8 e.payload 2)) b)).win.mem)
    ∧ (∀ (pages : List Nat) (img : List Byte), defers (.sceneStore t n) t n 0x0204 4 (zeroAt 2 2) 2
      (fun e b => pages = (List.range (u8 e.payload 1)).map (u8 e.payload 0 + ·) ∧ pages ≠ [] ∧ (∀ p ∈ pages, bulkPage p = true)
        ∧ nvOpen b = true ∧ (∀ p ∈ pages, holds b n p = true)
        ∧ (let all := pages.flatMap fun p => readPage b p 0 4096
          (∀ p ∈ pages, pageBad b p = false) ∧ 64 ≤ u32 all 12 ∧ u32 all 12 ≤ 4096 * u8 e.payload 1 ∧ img = all.take (u32 all 12)
          ∧ sha256 (img.drop 64) = slice img 20 32 ∧ badHeader b img = false ∧ imageRsvd b img = false
          ∧ ¬ (u8 img 6 = 1 ∧ badFull b img = true)))
      [.win, .store]
      (fun e b u => takenPages b u n pages
        ∧ u.store = { b.store with queue := b.store.queue ++ [nvWrite (u8 img 7) img n e (le 1 (u8 img 7) ++ [0, 0, 0] ++ le 4 (u32 img 16)) pages
            [(0x0202, u8 img 7, u32 img 16)]] }))

/-- PAT_LOAD whose checks pass waits for a commit round; PAT_START, PAT_STOP, PAT_RESET and PAT_TRIGGER send their controls for the
mark that they answer with; PAT_STATUS answers the engines' status. -/
def Obligations.PatternCommandsComplete : Prop :=
  ∀ (t : Nat) (n : Fin 16),
    defers (.patLoad t n) t n 0x0301 16 (fun p => u8 p 14 / 2 == 0 && u8 p 15 == 0) 2
      (fun e b =>
        let engines := maskList e.payload 0 112
        let trig := (u8 e.payload 14).testBit 0
        let named := (engines.map (0x50 + · / 2)).eraseDups ++ (if trig then [0x88] else [])
        heldPages b n named = named ∧ (∀ g ∈ engines, isPresent b (g / 16) = true)
        ∧ (∀ g ∈ engines, progRsvd (blockWords b g) = false ∧ badProgram (blockWords b g) = false)
        ∧ (trig = true → trigRsvd (readPage b 0x88 0 1048) = false ∧ badTrig (nSheds b) (readPage b 0x88 0 1048) = false)
        ∧ (∀ p ∈ named, pageBad b p = false) ∧ safeOn b = false ∧ b.power.entry = none)
      [.win, .scene]
      (fun e b u =>
        let engines := maskList e.payload 0 112
        let trig := (u8 e.payload 14).testBit 0
        let named := (engines.map (0x50 + · / 2)).eraseDups ++ (if trig then [0x88] else [])
        u.scene.waiting = b.scene.waiting ++ [⟨.pattern engines (if trig then some (readPage b 0x88 0 1048) else none), n, e.id, e.tag, 0, none,
          b.now, engines.map fun g => .prog g (blockWords b g), named⟩] ∧ takenPages b u n named)
    ∧ completes (.patStart t n) t n 0x0302 20 (fun p => u8 p 14 / 2 == 0 && u8 p 15 == 0) 1
      (fun e b => absentEngine b (maskList e.payload 0 112) = false ∧ safeOn b = false)
      (fun e b => le 4 (atMark b ((u8 e.payload 14).testBit 0) (BitVec.ofNat 32 (u32 e.payload 16))).toNat) [.pat, .links]
      (fun e b u =>
        let m := atMark b ((u8 e.payload 14).testBit 0) (BitVec.ofNat 32 (u32 e.payload 16))
        u.pat.since = (maskList e.payload 0 112).foldl (fun l g => keepControl g ⟨g % 16, .start, (u8 e.payload 14).testBit 1, m, 0⟩ l) b.pat.since
        ∧ u.links = (sendControls (maskList e.payload 0 112) .start ((u8 e.payload 14).testBit 1) m b).links)
    ∧ completes (.patStop t n) t n 0x0303 20 (fun p => u8 p 14 / 4 == 0 && u8 p 15 == 0) 1
      (fun e b => absentEngine b (maskList e.payload 0 112) = false ∧ safeOn b = false)
      (fun e b => le 4 (atMark b ((u8 e.payload 14).testBit 0) (BitVec.ofNat 32 (u32 e.payload 16))).toNat) [.pat, .links]
      (fun e b u =>
        let m := atMark b ((u8 e.payload 14).testBit 0) (BitVec.ofNat 32 (u32 e.payload 16))
        u.pat.since = (maskList e.payload 0 112).foldl (fun l g => keepControl g ⟨g % 16, .stop, (u8 e.payload 14).testBit 1, m, 0⟩ l) b.pat.since
        ∧ u.links = (sendControls (maskList e.payload 0 112) .stop ((u8 e.payload 14).testBit 1) m b).links)
    ∧ completes (.patReset t n) t n 0x0305 16 (zeroAt 14 2) 1
      (fun e b => absentEngine b (maskList e.payload 0 112) = false)
      (fun _ b => le 4 (controlMark b).toNat) [.pat, .links]
      (fun e b u => u.pat.since = (maskList e.payload 0 112).foldl (fun l g => keepControl g ⟨g % 16, .reset, false, controlMark b, 0⟩ l) b.pat.since
        ∧ u.links = (sendControls (maskList e.payload 0 112) .reset false (controlMark b) b).links)
    ∧ completes (.patTrigger t n) t n 0x0304 8 (fun p => u8 p 1 / 2 == 0 && zeroAt 2 2 p) 1
      (fun e b => u8 e.payload 0 ≤ 63 ∧ safeOn b = false)
      (fun e b => le 4 (atMark b ((u8 e.payload 1).testBit 0) (BitVec.ofNat 32 (u32 e.payload 4))).toNat) [.pat, .links, .regs]
      (fun e b u =>
        let m := atMark b ((u8 e.payload 1).testBit 0) (BitVec.ofNat 32 (u32 e.payload 4))
        let x := trigEntry b (u8 e.payload 0)
        if trigValid x then u.regs = b.regs ∧ u.links = (sendControls (trigEngines x) (trigAct x) (trigImm x) m b).links
        else yf u R.trgSt 5 0 = u8 e.payload 0 ∧ u.links = b.links ∧ u.pat = b.pat)
    ∧ completes (.patStatus t n) t n 0x0306 4 (zeroAt 2 2) 0
      (fun e b => 1 ≤ u8 e.payload 1 ∧ u8 e.payload 1 ≤ 14 ∧ u8 e.payload 0 + u8 e.payload 1 ≤ 112
        ∧ ∀ i < u8 e.payload 1, isPresent b ((u8 e.payload 0 + i) / 16) = true)
      (fun e b => (List.range (u8 e.payload 1)).flatMap fun i =>
        le 4 (peSt (getEngine (getShed b ((u8 e.payload 0 + i) / 16)) ((u8 e.payload 0 + i) % 16))).toNat) [] nothing

/-- FN_CLEAR whose checks pass starts a retest; LT_READ and LT_CAL_STATUS answer; LT_CAL_CAPTURE starts a capture, whose mark its reply
carries; LT_CAL_COMMIT and LT_CAL_WRITE queue the write of the shed's calibration table. A retest or capture that finds WRITEs held by a round
has its mark named later (log entry 195). -/
def Obligations.LampCommandsComplete : Prop :=
  ∀ (t : Nat) (n : Fin 16),
    defers (.fnClear t n) t n 0x0401 4 (zeroAt 1 3) 0
      (fun e b =>
        let f := u8 e.payload 0
        ((getFn b f).holder = .session n ∨ (getSess b n).priv = .owner) ∧ (getFn b f).st = 1 ∧ b.therm.retest = none ∧ outputsAllowed b = true
        ∧ ∀ k ∈ present b, ∀ i ∈ sitesOf (applied b k) f, shedServing b k = true ∧ offFault b k i = false
          ∧ ¬ (drivable (getShed b k).cfg i = true ∧ retestTight b k i = true))
      [.therm, .links, .scene]
      (fun e b u =>
        let f := u8 e.payload 0
        let m := markIn b (1200 * us)
        if writesHeld b then u.therm = { b.therm with retest := some ⟨f, 0, false, n, e.id, 0, none, none⟩ } ∧ u.links = b.links
        else u.therm = { b.therm with retest := some ⟨f, m, true, n, e.id, 0, none, none⟩ } ∧ u.links = (sendFnState f 2 m { b with therm := u.therm }).links)
    ∧ completes (.ltRead t n) t n 0x0410 4 noRsvd 0
      (fun e b => u8 e.payload 1 ≤ 7 ∧ sitesOk b (u8 e.payload 0) (u16 e.payload 2) (u8 e.payload 1) = true)
      (fun e b => (List.range (u8 e.payload 1)).flatMap fun j => lampEntry (getShed b (u8 e.payload 0)) (u16 e.payload 2 + j)) [] nothing
    ∧ (let fits := fun (e : Entry) (b : State) =>
        let k := u8 e.payload 0
        let d := getShed b k
        b.lt.capture = none ∧ u8 e.payload 1 ≤ 1 ∧ u8 e.payload 4 ≤ 128 ∧ 256 ≤ u16 e.payload 6 ∧ u16 e.payload 6 ≤ 4095
        ∧ sitesOk b k (u16 e.payload 2) (u8 e.payload 4) = true
        ∧ ∀ j < u8 e.payload 4,
            let r := rowSpan d.perP (rowsOf d.cfg) (10 * cf d.cfg R.dimCfg 31 25) (rowOf (u16 e.payload 2 + j))
            r.1 + 300 ≤ r.2
      let runs := fun (e : Entry) (u : State) (m : Word) (named : Bool) => ∃ y : Capture, u.lt.capture = some y
        ∧ y.shed = u8 e.payload 0 ∧ y.point = u8 e.payload 1 ∧ y.acal = u16 e.payload 6 ∧ y.mark = m ∧ y.named = named ∧ y.periods = 0
        ∧ y.sites.map (·.site) = (List.range (u8 e.payload 4)).map (u16 e.payload 2 + ·)
      let serves := fun (e : Entry) (b : State) => shedServing b (u8 e.payload 0) = true ∧ outputsAllowed b = true
      completes (.ltCalCapture t n) t n 0x0411 8 (zeroAt 5 1) 2 (fun e b => fits e b ∧ serves e b ∧ writesHeld b = false)
        (fun _ b => le 4 (markIn b (1200 * us)).toNat) [.lt, .links]
        (fun e b u => runs e u (markIn b (1200 * us)) true ∧ u.links = (toShed (u8 e.payload 0) (.writeCapture ⟨u16 e.payload 2,
          u8 e.payload 4, u8 e.payload 1, u16 e.payload 6, markIn b (1200 * us)⟩) b).links)
      ∧ defers (.ltCalCapture t n) t n 0x0411 8 (zeroAt 5 1) 2 (fun e b => fits e b ∧ serves e b ∧ writesHeld b = true) [.lt]
        (fun e _ u => runs e u 0 false)
      ∧ completes (.ltCalCapture t n) t n 0x0411 8 (zeroAt 5 1) 2 (fun e b => fits e b ∧ ¬ serves e b)
        (fun _ b => le 4 (markIn b (1200 * us)).toNat) [.lt]
        (fun e _ u => u.lt.capture = none ∧ u.lt.held = true ∧ ∀ j < u8 e.payload 4,
          (Table.get CalPoint.init u.lt.points (2 * (2048 * u8 e.payload 0 + u16 e.payload 2 + j) + u8 e.payload 1)).status = 10))
    ∧ completes (.ltCalStatus t n) t n 0x0412 4 noRsvd 0
      (fun e b => u8 e.payload 1 ≤ 52 ∧ sitesOk b (u8 e.payload 0) (u16 e.payload 2) (u8 e.payload 1) = true)
      (fun e b => le 1 (if b.lt.capture.isSome then 1 else if b.lt.held then 2 else 0) ++ zeros 3
        ++ (List.range (u8 e.payload 1)).map fun j =>
          let st := fun q => (Table.get CalPoint.init b.lt.points (2 * (2048 * u8 e.payload 0 + u16 e.payload 2 + j) + q)).status
          BitVec.ofNat 8 (st 0 + 16 * st 1)) [] nothing
    ∧ defers (.ltCalCommit t n) t n 0x0413 8 (fun p => zeroAt 1 1 p && zeroAt 6 2 p) 2
      (fun e b => sitesOk b (u8 e.payload 0) (u16 e.payload 2) (u16 e.payload 4) = true ∧ b.lt.held = true ∧ nvOpen b = true)
      [.lt, .store]
      (fun e b u =>
        let k := u8 e.payload 0
        let i := u16 e.payload 2
        let c := u16 e.payload 4
        let pt := fun (j q : Nat) => Table.get CalPoint.init b.lt.points (2 * (2048 * k + i + j) + q)
        let good := (((List.range c).map fun j => (j, calRecord (pt j 0) (pt j 1))).filter fun r => r.2.1 = 0).map fun r => (i + r.1, r.2.2)
        u.lt.held = false ∧ u.lt.capture = b.lt.capture
        ∧ u.store = { b.store with queue := b.store.queue ++ [{ nvWrite (N.cal k) (putCal (calBase b k) good) n e
            (calReply good.length (c - good.length)) [] [(0x0410, k, good.length)] with cal := good.map (·.1) }] })
    ∧ defers (.ltCalWrite t n) t n 0x0414 8 (zeroAt 6 2) 2
      (fun e b => u16 e.payload 4 ≤ 512 ∧ sitesOk b (u8 e.payload 1) (u16 e.payload 2) (u16 e.payload 4) = true
        ∧ holds b n (u8 e.payload 0) = true ∧ nvOpen b = true ∧ pageBad b (u8 e.payload 0) = false
        ∧ ∀ w ∈ pageWords b (u8 e.payload 0) 0 (u16 e.payload 4), dfld w 10 0 = 0)
      [.win, .store]
      (fun e b u =>
        let k := u8 e.payload 1
        let c := u16 e.payload 4
        let good := ((pageWords b (u8 e.payload 0) 0 c).zipIdx.map fun w => (u16 e.payload 2 + w.2, w.1)).filter fun r => goodRecord r.2
        takenPages b u n [u8 e.payload 0]
        ∧ u.store = { b.store with queue := b.store.queue ++ [{ nvWrite (N.cal k) (putCal (calBase b k) good) n e
            (calReply good.length (c - good.length)) [u8 e.payload 0] [(0x0410, k, good.length)] with cal := good.map (·.1) }] })

/-- THERM_CLEAR ends Cold Wait: the device is in Run, and COLD_WAIT and the shutdown cause are cleared (09, R272). -/
def Obligations.ThermClearCompletes : Prop :=
  ∀ (t : Nat) (n : Fin 16) (e : Entry) (s : State), inTurn s n 0x0501 e → wellPut s n e 0 noRsvd 1 → inCold s = true →
    (tjMax s).1 < shutdownT s - shutdownHys s → s.power.tripped.toNat = 0 →
    leads (.thermClear t n) s fun u => u.power.mode = .run ∧ u.power.hotTrip = false ∧ yf u R.thermSt 9 9 = 0 ∧ yf u R.rstCause 8 8 = 0
      ∧ (s.scene.round = none → (getMbx u n).replies.map shown = (getMbx s n).replies.map shown
        ++ (if (answeredBy s n e).flags % 2 = 1 then [] else [(e.id, (answeredBy s n e).opcode, (answeredBy s n e).tag, 0, 0, [])]))
      ∧ changesOnly [.mbx, .net, .turn, .flags, .fns, .scene, .regs, .power, .log, .faults, .sheds, .links, .marks, .win] t s u

/-! The Logbook and the Tack Room (14). -/

/-- LOG_CURSOR, LOG_FETCH, LOG_SET_WALL, LOG_RATE_SET, TACK_FETCH and LAMP_RESET. -/
def Obligations.LogCommandsComplete : Prop :=
  ∀ (t : Nat) (n : Fin 16),
    completes (.logCursor t n) t n 0x0601 8 (zeroAt 1 3) 0 (fun e _ => u8 e.payload 0 ≤ 3)
      (fun e b => le 4 (cursorTarget b (u8 e.payload 0) (u32 e.payload 4))) [.sess]
      (fun e b u => getSess u n = { getSess b n with cursor := cursorTarget b (u8 e.payload 0) (u32 e.payload 4) } ∧ elsewhere getSess b u n)
    ∧ completes (.logFetch t n) t n 0x0602 4 (zeroAt 3 1) 0
      (fun e b => 1 ≤ u8 e.payload 1 ∧ u8 e.payload 1 ≤ 127 ∧ u8 e.payload 2 ≤ 3
        ∧ (u8 e.payload 0 = 2 ∨ (bulkPage (u8 e.payload 0) = true ∧ holds b n (u8 e.payload 0) = true)))
      (fun e b =>
        let pg := u8 e.payload 0
        le 4 (if pg = 2 then evenGen (devWrite 2 (fetchBytes b n e) b) 2
          else (getOwn (fillHeld n pg 0 (zeros 4 ++ fetchBytes b n e) b) pg).gen.toNat) ++ le 1 (fetched b n e).1.length ++ zeros 3)
      [.sess, .win]
      (fun e b u =>
        let pg := u8 e.payload 0
        getSess u n = { getSess b n with cursor := fetchCursor b n e } ∧ elsewhere getSess b u n
        ∧ u.win = (if pg = 2 then devWrite 2 (fetchBytes b n e) b else fillHeld n pg 0 (zeros 4 ++ fetchBytes b n e) b).win)
    ∧ completes (.logSetWall t n) t n 0x0605 4 noRsvd 1 always (fun _ _ => []) [.log]
      (fun e b u => u.log.wall = u32 e.payload 0 ∧ u.log.wallSet = true ∧ u.log.wallHost = decide (u32 e.payload 0 ≠ 0)
        ∧ u.log.stepped = (b.log.stepped || decide (u32 e.payload 0 < b.log.wall)))
    ∧ (∀ r : List (Nat × Nat), completes (.logRateSet t n) t n 0x0606 (4 + 2 * r.length) (zeroAt 3 1) 2
      (fun e _ => u8 e.payload 2 = r.length ∧ rateEntries e.payload = r ∧ u16 e.payload 0 + r.length ≤ 384
        ∧ ∀ x ∈ r, badRate x.1 (x.2 / 256) = false) (fun _ _ => []) [.regs, .log]
      (fun _ _ u => ∀ x ∈ r, yf u (R.logRate + x.1 / 2) (16 * (x.1 % 2) + 15) (16 * (x.1 % 2)) = x.2))
    ∧ completes (.tackFetch t n) t n 0x0610 4 (zeroAt 1 1) 0
      (fun e b => u16 e.payload 2 ≤ 1008 ∧ holdsBulk b n (u8 e.payload 0) = true)
      (fun e b => maskBytes 2 ((List.range 16).filter fun j =>
        ((Table.range Snapshot.void b.log.tack (u16 e.payload 2) 16).getD j Snapshot.void).logSeq == 0) ++ zeros 2) [.win]
      (fun e b u => u.win = (fillHeld n (u8 e.payload 0) 0 ((Table.range Snapshot.void b.log.tack (u16 e.payload 2) 16).flatMap snapBytes) b).win)
    ∧ completes (.lampReset t n) t n 0x0620 4 (zeroAt 1 3) 2 (fun _ b => nvOpen b = true)
      (fun e b => le 4 (getFn b (u8 e.payload 0)).lampS ++ le 4 (getFn b (u8 e.payload 0)).onN) [.fns, .log, .store]
      (fun e b u => getFn u (u8 e.payload 0) = { getFn b (u8 e.payload 0) with lampS := 0, onN := 0 } ∧ elsewhere getFn b u (u8 e.payload 0))

/-- LOG_FLUSH writes what is staged, or waits with what waits for the window; LOG_CLEAR empties the Logbook. -/
def Obligations.LogWritesComplete : Prop :=
  ∀ (t : Nat) (n : Fin 16),
    defers (.logFlush t n) t n 0x0603 0 noRsvd 1 (fun _ b => writesWait b = true) [.log, .store]
      (fun e b u => u.log = { b.log with waits := b.log.waits ++ [⟨n, e.id, e.tag, newestSeq b⟩] } ∧ u.store = { b.store with flushDue := true })
    ∧ (∀ (e : Entry) (s : State), inTurn s n 0x0603 e → wellPut s n e 0 noRsvd 1 → writesWait (begun t n e s) = false →
      leads (.logFlush t n) s fun u => u.log.ring = [] ∧ u.log.waits = [] ∧ u.store = { s.store with flushDue := false }
        ∧ (s.log.waits = [] → replied s u n e 0 0 [] ∧ mailKept s u n) ∧ changesOnly [.mbx, .net, .turn, .log, .store] t s u)
    ∧ ∀ (e : Entry) (s : State), inTurn s n 0x0604 e → wellPut s n e 0 noRsvd 2 → inCold s = false → flushHeld s = false →
      leads (.logClear t n) s fun u => u.log.clearSeq = s.log.nextSeq
        ∧ (s.log.waits = [] → replied s u n e 0 0 (le 4 s.log.nextSeq) ∧ mailKept s u n) ∧ changesOnly [.mbx, .net, .turn, .log, .store] t s u

/-! The Paddock engines (13). -/

/-- PK_LOAD, PK_STORE, PK_PIN_CONFIG and PK_RESET: a checked image becomes the engine's program and its lanes idle, an image is queued
for the store, the pin map takes its words, and an engine's lanes idle. -/
def Obligations.PaddockProgramsComplete : Prop :=
  ∀ (t : Nat) (n : Fin 16),
    completes (.pkLoad t n) t n 0x0701 4 (zeroAt 2 2) 2
      (fun e b => u8 e.payload 0 ≤ 1 ∧ bulkPage (u8 e.payload 1) = true ∧ holds b n (u8 e.payload 1) = true
        ∧ (∀ g ∈ lanesOf (u8 e.payload 0), (getLane b g).st = .stopped) ∧ pkCheck (pkImage b (u8 e.payload 1)) = none
        ∧ pageBad b (u8 e.payload 1) = false)
      (fun _ _ => []) [.win, .pk, .log]
      (fun e b u =>
        let k := u8 e.payload 0
        let img := pkImage b (u8 e.payload 1)
        (getPk u k).length = pkLength img ∧ (getPk u k).lanes = BitVec.ofNat 8 (u8 img 3) ∧ (getPk u k).tag = BitVec.ofNat 32 (u32 img 8)
        ∧ (∀ i < pkLength img, Table.get 0 (getPk u k).imem i = BitVec.ofNat 32 (u32 img (128 + 4 * i)))
        ∧ (∀ l < 8, getLane u (8 * k + l) = idleLane (pkEntry img l) (getLane b (8 * k + l)))
        ∧ holds u n (u8 e.payload 1) = true ∧ elsewhere getPk b u k)
    ∧ defers (.pkStore t n) t n 0x0702 4 (zeroAt 2 2) 2
      (fun e b => u8 e.payload 0 ≤ 1 ∧ bulkPage (u8 e.payload 1) = true ∧ holds b n (u8 e.payload 1) = true ∧ nvOpen b = true
        ∧ pkCheck (pkImage b (u8 e.payload 1)) = none ∧ pageBad b (u8 e.payload 1) = false) [.win, .store]
      (fun e b u =>
        let g := u8 e.payload 1
        takenPages b u n [g]
        ∧ u.store = { b.store with queue := b.store.queue ++ [nvWrite (N.pk (u8 e.payload 0))
            ((pkImage b g).take (128 + 4 * pkLength (pkImage b g))) n e [] [g] []] })
    ∧ completes (.pkPinConfig t n) t n 0x0703 48 pinsOk 2
      (fun e b =>
        (∀ i < 24, u16 e.payload (2 * i) ≠ pinEntry b i → pinRuns b (u16 e.payload (2 * i)) = false ∧ pinRuns b (pinEntry b i) = false)
        ∧ badPins ((List.range 12).foldl (fun t w => withReg t (R.pkPinmap + w) (u32 e.payload (4 * w))) b.regs) = false)
      (fun _ _ => []) [.regs]
      (fun e b u => (∀ w < 12, reg u yardDie (R.pkPinmap + w) = BitVec.ofNat 32 (u32 e.payload (4 * w)))
        ∧ ∀ die r, (∀ w < 12, regKey die r ≠ regKey yardDie (R.pkPinmap + w)) → reg u die r = reg b die r)
    ∧ completes (.pkReset t n) t n 0x0706 4 (zeroAt 1 3) 1
      (fun e b => u8 e.payload 0 ≤ 1
        ∧ ∀ g ∈ lanesOf (u8 e.payload 0), laneDefined b g = true → entryUse (laneEntry b g) ≤ (getSess b n).priv.rank)
      (fun _ _ => []) [.pk, .faults]
      (fun e b u => u.pk.engines = b.pk.engines ∧ u.pk.raised = b.pk.raised
        ∧ ∀ g, getLane u g = if g / 8 = u8 e.payload 0 then idleLane (laneEntry b g) (getLane b g) else getLane b g)

/-- PK_START, PK_STOP, PK_PUSH, PK_PULL and PK_STATUS: the lanes that they name, and no other. -/
def Obligations.PaddockLanesComplete : Prop :=
  ∀ (t : Nat) (n : Fin 16),
    let mayUse := fun (b : State) (g : Nat) => laneDefined b g = true ∧ entryUse (laneEntry b g) ≤ (getSess b n).priv.rank
    completes (.pkStart t n) t n 0x0704 4 (zeroAt 2 2) 1 (fun e b => u8 e.payload 0 ≤ 1 ∧ ∀ g ∈ namedLanes e, mayUse b g) (fun _ _ => []) [.pk]
      (fun e b u => u.pk.engines = b.pk.engines ∧ ∀ g, getLane u g =
        if g ∈ namedLanes e ∧ (getLane b g).st = .stopped then { getLane b g with st := .running } else getLane b g)
    ∧ completes (.pkStop t n) t n 0x0705 4 (zeroAt 2 2) 1 (fun e b => u8 e.payload 0 ≤ 1 ∧ ∀ g ∈ namedLanes e, mayUse b g) (fun _ _ => [])
      [.pk]
      (fun e b u => u.pk.engines = b.pk.engines ∧ ∀ g, getLane u g =
        if g ∈ namedLanes e then { getLane b g with st := .stopped } else getLane b g)
    ∧ (∀ c : Nat, 1 ≤ c → c ≤ 12 → completes (.pkPush t n) t n 0x0707 (4 + 4 * c) (zeroAt 2 2) 1
      (fun e b => u8 e.payload 1 = c ∧ u8 e.payload 0 ≤ 15 ∧ mayUse b (u8 e.payload 0) ∧ (getLane b (u8 e.payload 0)).txq.length + c ≤ 256)
      (fun e b => le 2 ((getLane b (u8 e.payload 0)).txq.length + c) ++ [0, 0]) [.pk]
      (fun e b u => let g := u8 e.payload 0
        getLane u g = { getLane b g with
          txq := (getLane b g).txq ++ (List.range c).map fun i => BitVec.ofNat 32 (ofLe (slice e.payload (4 + 4 * i) 4)) }
        ∧ elsewhere getLane b u g ∧ u.pk.engines = b.pk.engines))
    ∧ completes (.pkPull t n) t n 0x0708 4 (zeroAt 2 2) 1
      (fun e b => u8 e.payload 0 ≤ 15 ∧ 1 ≤ u8 e.payload 1 ∧ u8 e.payload 1 ≤ 12 ∧ mayUse b (u8 e.payload 0))
      (fun e b =>
        let out := (getLane b (u8 e.payload 0)).rxq.take (u8 e.payload 1)
        le 1 out.length ++ [0, 0, 0] ++ out.flatMap fun w => le 4 w.toNat) [.pk]
      (fun e b u => let g := u8 e.payload 0
        getLane u g = { getLane b g with rxq := (getLane b g).rxq.drop (u8 e.payload 1) } ∧ elsewhere getLane b u g
        ∧ u.pk.engines = b.pk.engines)
    ∧ completes (.pkStatus t n) t n 0x0709 4 (zeroAt 1 3) 0
      (fun e b => u8 e.payload 0 ≤ 15 ∧ laneDefined b (u8 e.payload 0) = true)
      (fun e b =>
        let g := u8 e.payload 0
        le 4 (pkLaneSt b g).toNat ++ le 4 (pkLaneCnt b g).toNat ++ le 4 (pkEngSt b (g / 8)).toNat
          ++ le 4 (reg b yardDie R.pkEvtLo).toNat ++ le 4 (reg b yardDie R.pkEvtHi).toNat
          ++ le 2 (getLane b g).ca.toNat ++ le 2 (getLane b g).cb.toNat ++ le 4 (getLane b g).sh.toNat) [] nothing

/-! The SPI controller ports and the window (12). -/

/-- SPIM_CONFIG, SPIM_STATUS, XIP_CONFIG and SPIM_RESET. -/
def Obligations.SpiPortsComplete : Prop :=
  ∀ (t : Nat) (n : Fin 16),
    completes (.spimConfig t n) t n 0x0801 12 configOk 1
      (fun e b => (bindSel e < 4 ∨ (getSess b n).priv = .owner) ∧ bindPort e ≠ 3 ∧ bindBusy b (bindPort e) (bindSel e) = false
        ∧ badSerial (withReg (withReg b.regs (timReg (bindPort e) (bindSel e)) (u32 e.payload 4)) (fmtReg (bindPort e) (bindSel e))
            (u32 e.payload 8)) = false)
      (fun _ _ => []) [.regs]
      (fun e _ u => bindTim u (bindPort e) (bindSel e) = BitVec.ofNat 32 (u32 e.payload 4)
        ∧ bindFmt u (bindPort e) (bindSel e) = BitVec.ofNat 32 (u32 e.payload 8))
    ∧ completes (.spimStatus t n) t n 0x0805 4 (zeroAt 1 3) 0 (fun e _ => u8 e.payload 0 ≤ 2)
      (fun e b => le 4 (spimSt b (u8 e.payload 0)).toNat) [] nothing
    ∧ completes (.xipConfig t n) t n 0x0810 4 (fun p => u8 p 0 % 16 == 0) 2
      (fun e b => b.xip.copy = none ∧ badSerial (withReg b.regs R.xipCfg (u32 e.payload 0)) = false) (fun _ _ => []) [.regs, .xip]
      (fun e _ u => reg u yardDie R.xipCfg = BitVec.ofNat 32 (u32 e.payload 0) ∧ u.xip = ⟨none, []⟩)
    ∧ ∀ (e : Entry) (s : State), inTurn s n 0x0804 e → wellPut s n e 4 (zeroAt 1 3) 2 → u8 e.payload 0 ≤ 2 →
      leads (.spimReset t n) s fun u =>
        let p := u8 e.payload 0
        (getSpim u p).xfer = none ∧ (getSpim u p).frame = none ∧ (getSpim u p).aborts = 0 ∧ (getSpim u p).timeouts = 0
        ∧ elsewhere getSpim s u p ∧ (p = 0 → u.xip = ⟨none, []⟩) ∧ (p ≠ 0 → u.xip = s.xip)
        ∧ ((getSpim s p).xfer = none → (p = 0 → s.xip.copy = none) → replied s u n e 0 0 [] ∧ mailKept s u n)
        ∧ changesOnly [.mbx, .net, .turn, .spim, .xip, .win, .faults, .log] t s u

/-- SPIM_XFER, SPIM_XFER_PAGE and SPIM_XIP_COPY that pass the checks of their tables begin their transfer or copy. -/
def Obligations.SpiTransfersComplete : Prop :=
  ∀ (t : Nat) (n : Fin 16),
    let begins := fun (e : Entry) (b u : State) (out miso : List Word) (page : Option (Nat × Nat)) =>
      let p := bindPort e
      let q := bindSel e
      let y := getSpim b p
      getSpim u p = { y with xfer := some { sess := n, entry := e.id, select := q, hold := holdFlag e, words := out, miso := miso, page := page
                                            start := if y.frame.isSome then b.now else xferStart b p (bindTim b p q)
                                            lead := y.frame.isNone, tim := bindTim b p q, fmt := bindFmt b p q } }
      ∧ elsewhere getSpim b u p
    (∀ (miso : List Word) (len : Nat), defers (.spimXfer t n miso) t n 0x0802 len (fun p => bindOk p && u8 p 1 < 2 && zeroAt 3 1 p) 1
      (fun e b => len = xferLen b e.payload
        ∧ xferRefusal b n e (u8 e.payload 2) (52 / payloadWord b e.payload) false none = none) [.spim]
      (fun e b u => begins e b u (packed (payloadWord b e.payload) (u8 e.payload 2) (e.payload.drop 4)) miso none))
    ∧ (∀ miso : List Word, defers (.spimXferPage t n miso) t n 0x0803 8 (fun p => bindOk p && u8 p 1 < 2 && zeroAt 3 1 p) 1
      (fun e b =>
        let w := payloadWord b e.payload
        xferRefusal b n e (u16 e.payload 6) (4096 / w) (u16 e.payload 4 + u16 e.payload 6 * w > 4096) (some (u8 e.payload 2)) = none)
      [.spim, .win]
      (fun e b u =>
        let w := payloadWord b e.payload
        let g := u8 e.payload 2
        takenPages b u n [g]
        ∧ begins e b u (packed w (u16 e.payload 6) (readPage b g (u16 e.payload 4) (u16 e.payload 6 * w))) miso (some (g, u16 e.payload 4))))
    ∧ ∀ flash : List Byte, defers (.spimXipCopy t n flash) t n 0x0811 12 (fun p => zeroAt 5 1 p && zeroAt 10 2 p) 1
      (fun e b => yf b R.xipCfg 31 31 = 1 ∧ 1 ≤ u16 e.payload 8 ∧ u16 e.payload 8 ≤ 4096 ∧ u16 e.payload 6 + u16 e.payload 8 ≤ 4096
        ∧ u32 e.payload 0 + u16 e.payload 8 ≤ 0x1000000 ∧ holds b n (u8 e.payload 4) = true ∧ (getSpim b 0).frame = none ∧ b.xip.copy = none)
      [.xip, .win]
      (fun e b u => takenPages b u n [u8 e.payload 4]
        ∧ u.xip = { b.xip with copy := some ⟨n, e.id, u8 e.payload 4, u16 e.payload 6, u32 e.payload 0, padTo (u16 e.payload 8) flash, b.now⟩ })

/-! CAN (11). -/

/-- CAN_RESTART of a controller in bus-off, and CAN_MAP_LOAD of a map that the checks accept. -/
def Obligations.CanCommandsComplete : Prop :=
  ∀ (t : Nat) (n : Fin 16),
    completes (.canRestart t n) t n 0x0902 4 (zeroAt 1 3) 1 (fun e b => u8 e.payload 0 ≤ 1 ∧ (getCan b (u8 e.payload 0)).bus = 2) (fun _ _ => [])
      [.can, .regs]
      (fun e b u =>
        let c := u8 e.payload 0
        getCan u c = { getCan b c with bus := 0, held := false } ∧ elsewhere getCan b u c
        ∧ yf u (R.canSt + 8 * c) 15 8 = 0 ∧ yf u (R.canSt + 8 * c) 7 0 = 0)
    ∧ ∀ (e : Entry) (s : State), inTurn s n 0x0901 e → wellPut s n e 4 (zeroAt 2 2) 2 → u8 e.payload 0 ≤ 1 →
      bulkPage (u8 e.payload 1) = true → holds s n (u8 e.payload 1) = true → mapReserved (mapWords s (u8 e.payload 1)) = false →
      badNet (withMap s.regs (u8 e.payload 0) (mapWords s (u8 e.payload 1))) = false →
      leads (.canMapLoad t n) s fun u =>
        (∀ j < 256, reg u yardDie (R.canMap + 256 * u8 e.payload 0 + j) = BitVec.ofNat 32 ((mapWords s (u8 e.payload 1)).getD j 0))
        ∧ (∀ i < 64, mapRun u (u8 e.payload 0) i = if mapValid u (u8 e.payload 0) i
            then { MapEntry.init with seen := max s.now t, sentAt := max s.now t } else MapEntry.init)
        ∧ holds u n (u8 e.payload 1) = true
        ∧ (getMbx u n).replies.map shown = (getMbx s n).replies.map shown
          ++ (if (answeredBy s n e).flags % 2 = 1 then [] else [(e.id, (answeredBy s n e).opcode, (answeredBy s n e).tag, 0, 0, [])])
        ∧ changesOnly [.mbx, .net, .turn, .flags, .regs, .win, .can, .fns, .scene, .log] t s u

/-! Firmware, configuration and keys (16, 17). -/

/-- FW_STATUS; FW_INSTALL_BEGIN, FW_INSTALL_WRITE, FW_INSTALL_FINISH and FW_INSTALL_ABORT, each with what it leaves of the slots and of
the install; FW_SVN_RAISE, which waits for its write (16, R441 to R444, R449). -/
def Obligations.FirmwareCommandsComplete : Prop :=
  ∀ (t : Nat) (n : Fin 16),
    completes (.fwStatus t n) t n 0x0A01 0 noRsvd 0 always
      (fun _ b => le 1 b.store.active ++ zeros 3 ++ slotStatus b 0 ++ slotStatus b 1) [] nothing
    ∧ (∀ (e : Entry) (s : State), inTurn s n 0x0A02 e → wellPut s n e 4 noRsvd 2 → s.power.mode ≠ .update → inCold s = false →
      s.power.fail = none → nvOpen s = true → s.power.entry = none → (getDet s 0x19).raised = false →
      leads (.fwInstallBegin t n) s fun u => replied s u n e 0 0 (le 1 (inactive s) ++ zeros 3) ∧ u.power.mode = .update
        ∧ u.store = { (setSlot (inactive s) { slotOf s (inactive s) with installed := none, activated := 0, bad := false, shipped := false } s).store
            with install := some ⟨n, u32 e.payload 0, [], false⟩ }
        ∧ changesOnly [.mbx, .net, .turn, .flags, .log, .power, .store] t s u)
    ∧ (∀ x : Install, completes (.fwInstallWrite t n) t n 0x0A03 4 (zeroAt 1 1) 2
      (fun e b => ownInstall b n = some x ∧ u16 e.payload 2 ≤ 510 ∧ bulkPage (u8 e.payload 0) = true ∧ holds b n (u8 e.payload 0) = true)
      (fun _ _ => []) [.win, .store]
      (fun e b u =>
        let f := slotOf b (inactive b)
        let blk := u16 e.payload 2
        holds u n (u8 e.payload 0) = true
        ∧ u.store = { (setSlot (inactive b) { f with image := Table.putAll 0 f.image (4096 * blk) (readPage b (u8 e.payload 0) 0 4096) } b).store
            with install := some { x with blocks := x.blocks.filter (· ≠ blk) ++ [blk] } }))
    ∧ (∀ (e : Entry) (s : State) (x : Install), inTurn s n 0x0A04 e → wellPut s n e 0 noRsvd 2 → ownInstall s n = some x → cryptoUp s = true →
      finishFault s x = none →
      let n' := seqNext ((slotOf s s.store.active).installed.getD 0)
      leads (.fwInstallFinish t n) s fun u => replied s u n e 0 0 (le 1 (inactive s) ++ zeros 3) ∧ u.power.mode = .run
        ∧ u.store = { (setSlot (inactive s) { slotOf s (inactive s) with installed := some n', bad := false } s).store with install := none }
        ∧ changesOnly [.mbx, .net, .turn, .flags, .log, .power, .store, .regs, .fns, .scene] t s u)
    ∧ (∀ (e : Entry) (s : State) (x : Install), inTurn s n 0x0A05 e → wellPut s n e 0 noRsvd 2 → ownInstall s n = some x →
      leads (.fwInstallAbort t n) s fun u => replied s u n e 0 0 [] ∧ u.power.mode ≠ .update
        ∧ u.store = { (setSlot (if s.store.active = 0 then 1 else 0)
            { slotOf s (if s.store.active = 0 then 1 else 0) with installed := none } s).store with install := none }
        ∧ changesOnly [.mbx, .net, .turn, .flags, .log, .power, .store, .regs, .fns, .scene] t s u)
    ∧ defers (.fwSvnRaise t n) t n 0x0A07 0 noRsvd 2
      (fun _ b => nvOpen b = true ∧ u16 (keyBase b) 2 ≤ imageSvn (slotOf b b.store.active)) [.store]
      (fun e b u => u.store = { b.store with queue := b.store.queue ++ [nvWrite N.keys
          (patch 2 (le 2 (imageSvn (slotOf b b.store.active))) (keyBase b)) n e (le 2 (imageSvn (slotOf b b.store.active)) ++ zeros 2) [] []] })

/-- CFG_READ, CFG_SAVE, ID_READ and LINK_STATUS, which clears the counters of LINK_ST where it is asked to (17, R455, Table 17.4; 16,
R446). -/
def Obligations.ConfigurationCommandsComplete : Prop :=
  ∀ (t : Nat) (n : Fin 16),
    completes (.cfgRead t n) t n 0x0A10 4 noRsvd 0 (fun e b => runBad b 14 e = false)
      (fun e b => (regRun e).flatMap fun r => le 4 (readReg b (u8 e.payload 2) r).toNat) [] nothing
    ∧ defers (.cfgSave t n) t n 0x0A12 0 noRsvd 2 (fun _ b => nvOpen b = true) [.store]
      (fun e b u => u.store = { b.store with queue := b.store.queue ++ [nvWrite N.regs (registerBlock b) n e [] [] []] })
    ∧ completes (.idRead t n) t n 0x0A20 4 (zeroAt 1 3) 0 (fun e b => bulkPage (u8 e.payload 0) = true ∧ holds b n (u8 e.payload 0) = true)
      (fun _ _ => []) [.win] (fun e b u => u.win = (fillHeld n (u8 e.payload 0) 0 (identityBody b) b).win)
    ∧ completes (.linkStatus t n) t n 0x0B04 4 (fun p => u8 p 1 / 2 == 0 && zeroAt 2 2 p) 0
      (fun e b => isPresent b (u8 e.payload 0) = true ∧ (u8 e.payload 1 = 1 → 1 ≤ (getSess b n).priv.rank))
      (fun e b => le 4 (reg b (u8 e.payload 0) R.linkSt).toNat) [.regs]
      (fun e b u => reg u (u8 e.payload 0) R.linkSt
          = (if u8 e.payload 1 = 1 then clearedLink b (u8 e.payload 0) else reg b (u8 e.payload 0) R.linkSt)
        ∧ ∀ die r, regKey die r ≠ regKey (u8 e.payload 0) R.linkSt → reg u die r = reg b die r)

/-- KEY_NONCE, KEY_STATUS, and KEY_SET in each of its three modes: in clear while OWNER is not set, wrapped, and erasing (16, R447, R448;
the bytes of a nonce are free values, log entry 13). -/
def Obligations.KeyCommandsComplete : Prop :=
  ∀ (t : Nat) (n : Fin 16),
    completes (.keyNonce t n) t n 0x0A21 0 noRsvd 2 (fun _ b => (getDet b 0x19).raised = false)
      (fun _ b => (List.range 32).map (Config.random b.free)) [.sess, .free]
      (fun _ b u => getSess u n = { getSess b n with keyNonce := some ⟨(List.range 32).map (Config.random b.free), 0, b.now, ownKey b⟩ }
        ∧ elsewhere getSess b u n ∧ u.free = b.free + 1)
    ∧ completes (.keyStatus t n) t n 0x0A23 0 noRsvd 0 always
      (fun _ b => le 1 (keyFlags b) ++ zeros 1 ++ le 2 (minSvn b)) [] nothing
    ∧ defers (.keySet t n) t n 0x0A22 52 (zeroAt 2 2) 0
      (fun e b => u8 e.payload 1 = 0 ∧ (u8 e.payload 0 = 1 ∨ u8 e.payload 0 = 2) ∧ nvOpen b = true ∧ n = 0
        ∧ (u8 (keyBase b) 0).testBit 1 = false ∧ cryptoUp b = true ∧ (slice e.payload 4 32).all (· == 0) = false
        ∧ (hmac (slice e.payload 4 32) (uidBytes b ++ le 1 (u8 e.payload 0))).take 16 = slice e.payload 36 16) [.store]
      (fun e b u => u.store = { b.store with queue := b.store.queue ++ [nvWrite N.keys
        (withKey (u8 e.payload 0) (slice e.payload 4 32) (keyBase b)) n e [] [] [(0x0A05, u8 e.payload 0, 0)]] })
    ∧ (∀ v : Nonce, defers (.keySet t n) t n 0x0A22 52 (zeroAt 2 2) 0
      (fun e b =>
        let key := List.zipWith (· ^^^ ·) (slice e.payload 4 32) (hmac (ownKey b) (v.bytes ++ uidBytes b ++ le 1 (u8 e.payload 0)))
        u8 e.payload 1 = 1 ∧ (u8 e.payload 0 = 1 ∨ u8 e.payload 0 = 2) ∧ nvOpen b = true ∧ (getSess b n).priv = .owner
        ∧ liveNonce b (getSess b n).keyNonce 0 = some v ∧ v.bytes ≠ [] ∧ cryptoUp b = true ∧ key.all (· == 0) = false
        ∧ (hmac key (uidBytes b ++ le 1 (u8 e.payload 0))).take 16 = slice e.payload 36 16) [.sess, .store]
      (fun e b u =>
        let key := List.zipWith (· ^^^ ·) (slice e.payload 4 32) (hmac (ownKey b) (v.bytes ++ uidBytes b ++ le 1 (u8 e.payload 0)))
        getSess u n = { getSess b n with keyNonce := none } ∧ elsewhere getSess b u n
        ∧ u.store = { b.store with queue := b.store.queue ++ [nvWrite N.keys
          (withKey (u8 e.payload 0) key (keyBase b)) n e [] [] [(0x0A05, u8 e.payload 0, 0)]] }))
    ∧ defers (.keySet t n) t n 0x0A22 52 (zeroAt 2 2) 0
      (fun e b => u8 e.payload 1 = 2 ∧ u8 e.payload 0 = 1 ∧ nvOpen b = true ∧ (getSess b n).priv = .owner ∧ zeroAt 4 48 e.payload = true) [.store]
      (fun e b u => u.store = { b.store with queue := b.store.queue ++ [nvWrite N.keys
        (patch 0 (le 1 (clrBit (u8 (keyBase b) 0) 0)) (patch 32 (zeros 32) (keyBase b))) n e [] [] []] })

/-- CFG_WRITE of a run of `c` registers that is not refused writes them in order (17, R455; 03, R114). -/
def Obligations.ConfigurationWriteCompletes : Prop :=
  ∀ (t : Nat) (n : Fin 16) (c : Nat),
    completes (.cfgWrite t n) t n 0x0A11 (4 + 4 * c) noRsvd 1
      (fun e b =>
        let die := u8 e.payload 2
        u8 e.payload 3 = c ∧ runBad b 13 e = false ∧ (regRun e).findSome? (writeRefusal (getSess b n).priv.rank) = none
        ∧ (cfgValues e).any valueRsvd = false ∧ (b.xip.copy = none ∨ R.xipBank ∉ regRun e)
        ∧ badConfig (nSheds b) (forAll (cfgValues e) (fun p s => clearStatus die p (writeReg die p.1 p.2 s)) b).regs = false)
      (fun _ _ => []) [.regs, .links, .scene, .can, .xip, .marks, .pk, .sheds]
      (fun e b u => u.regs = (forAll (cfgValues e) (fun p s => clearStatus (u8 e.payload 2) p (writeReg (u8 e.payload 2) p.1 p.2 s)) b).regs
        ∧ u.pk = (forAll (cfgValues e) (fun p s => clearStatus (u8 e.payload 2) p (writeReg (u8 e.payload 2) p.1 p.2 s)) b).pk
        ∧ u.sheds = (forAll (cfgValues e) (fun p s => clearStatus (u8 e.payload 2) p (writeReg (u8 e.payload 2) p.1 p.2 s)) b).sheds)

/-! Faults and resets commanded by the host (02, 15). -/

/-- FAULT_STATUS; FAULT_CLEAR of dies whose cause is gone, which leaves the other dies and the other detectors; FAULT_INJECT (15, R417,
R427, R431, R432). -/
def Obligations.FaultCommandsComplete : Prop :=
  ∀ (t : Nat) (n : Fin 16),
    completes (.faultStatus t n) t n 0x0B01 4 (zeroAt 2 2) 0
      (fun e _ => 1 ≤ u8 e.payload 1 ∧ u8 e.payload 1 ≤ 13 ∧ u8 e.payload 0 + u8 e.payload 1 ≤ 32)
      (fun e b => le 4 (faultSum b) ++ (List.range (u8 e.payload 1)).flatMap fun i => le 4 (faultSt b (u8 e.payload 0 + i))) [] nothing
    ∧ (∀ (e : Entry) (s : State), inTurn s n 0x0B02 e → wellPut s n e 4 (zeroAt 2 2) 1 → s.scene.round = none →
      let det := u8 e.payload 0
      let dies := clearDies s det (u8 e.payload 1)
      let left := dies.foldl clrBit (getDet s det).dies.toNat
      det ≤ 31 → u8 e.payload 1 / 2 ^ (nSheds s + 1) = 0 → clearRank (effClass s det) ≤ (getSess s n).priv.rank → dies ≠ [] →
      dies.findSome? (clearReason (atTime t s) det) = none →
      leads (.faultClear t n) s fun u => replied s u n e 0 0 (le 2 (getDet s det).inc ++ zeros 2) ∧ mailKept s u n
        ∧ getDet u det = { getDet s det with
            dies := BitVec.ofNat 8 left, raised := left ≠ 0, escalated := (getDet s det).escalated && left ≠ 0
            cause := (getDet s det).cause && left ≠ 0, raises := if left = 0 then [] else (getDet s det).raises }
        ∧ elsewhere getDet s u det
        ∧ changesOnly [.mbx, .net, .turn, .faults, .regs, .marks, .power, .links, .scene, .log, .sheds] t s u)
    ∧ completes (.faultInject t n) t n 0x0B03 8 (fun p => zeroAt 3 1 p && zeroAt 6 2 p) 2
      (fun e b => runRefusal b = none ∧ safeOn b = false ∧ shutdownOn b = false ∧ b.faults.injection = none
        ∧ injectBad b (u8 e.payload 0) (u8 e.payload 1) (u8 e.payload 2) (u16 e.payload 4) = false
        ∧ u8 e.payload 0 ≠ 1 ∧ u8 e.payload 0 ≠ 6)
      (fun _ b => le 2 b.faults.nextInc ++ zeros 2) [.faults, .log, .links]
      (fun e b u =>
        let chk := u8 e.payload 0
        u.faults = { b.faults with
          nextInc := if b.faults.nextInc ≥ 0xFFFF then 1 else b.faults.nextInc + 1
          injection := some ⟨chk, u8 e.payload 1, u8 e.payload 2, u16 e.payload 4, b.faults.nextInc, b.now,
            if chk = 4 ∨ chk = 5 then u16 e.payload 4 else 1⟩ }
        ∧ u.links = (if chk = 2 ∨ chk = 3 then (command (u8 e.payload 2) (.inject chk (u8 e.payload 1) (u16 e.payload 4)) b).links else b.links))

/-- WARM_RESET, FW_ACTIVATE of a VALID slot, SHED_RESET and PORT_RESET of the SPI target port, a CAN controller and an Ethernet port (02,
R76, R78, Table 2.8; 16, R445). -/
def Obligations.ResetCommandsComplete : Prop :=
  ∀ (t : Nat) (n : Fin 16),
    (∀ (e : Entry) (s : State), inTurn s n 0x0A30 e → wellPut s n e 0 noRsvd 2 →
      leads (.warmReset t n) s fun u => warmlyReset s u 2)
    ∧ (∀ (e : Entry) (s : State), inTurn s n 0x0A06 e → wellPut s n e 4 (zeroAt 1 3) 2 → u8 e.payload 0 ≤ 1 → s.power.mode ≠ .update →
      slotState s (u8 e.payload 0) = 2 → nvOpen s = true →
      leads (.fwActivate t n) s fun u => warmlyReset s u 2
        ∧ (slotOf u (u8 e.payload 0)).activated = ((slotOf s s.store.active).activated + 1) % 2 ^ 32)
    ∧ (∀ (e : Entry) (s : State), inTurn s n 0x0A31 e → wellPut s n e 4 (zeroAt 1 3) 2 →
      let k := u8 e.payload 0
      isPresent s k = true → resettingShed s k = false → s.scene.round = none → s.therm.retest = none →
      leads (.shedReset t n) s fun u => replied s u n e 0 0 [] ∧ mailKept s u n
        ∧ (getLink u k).trained = false ∧ elsewhere getLink s u k
        ∧ (getShed u k).mode = (if s.power.stable then .fallback else .safe) ∧ (getShed u k).resync = s.power.stable ∧ elsewhere getShed s u k
        ∧ shedShadow u k = true
        ∧ changesOnly [.mbx, .net, .turn, .regs, .links, .sheds, .faults, .lt] t s u)
    ∧ completes (.portReset t n) t n 0x0A32 4 (zeroAt 1 3) 2 (fun e _ => u8 e.payload 0 = 0) (fun _ _ => []) [.regs, .front]
      (fun _ b u => { u.front with irqFlags := b.front.irqFlags } = { b.front with miso := [], winBusy := false, frameErr := false }
        ∧ reg u yardDie R.spitErr = 0 ∧ ∀ die r, regKey die r ≠ regKey yardDie R.spitErr → reg u die r = reg b die r)
    ∧ completes (.portReset t n) t n 0x0A32 4 (zeroAt 1 3) 2 (fun e _ => u8 e.payload 0 = 3 ∨ u8 e.payload 0 = 4) (fun _ _ => []) [.regs, .can]
      (fun e b u =>
        let c := u8 e.payload 0 - 3
        (getCan u c).bus = 0 ∧ (getCan u c).held = false ∧ elsewhere getCan b u c ∧ yf u (R.canSt + 8 * c) 15 0 = 0)
    ∧ completes (.portReset t n) t n 0x0A32 4 (zeroAt 1 3) 2 (fun e _ => u8 e.payload 0 = 1 ∨ u8 e.payload 0 = 2) (fun _ _ => []) [.net, .faults]
      (fun e _ u =>
        let p := u8 e.payload 0 - 1
        Table.get [] u.net.egress p = [] ∧ (∀ l ∈ u.net.learned, l.port ≠ p) ∧ (p = 0 → u.net.link = false))

/-! The mailboxes, the front registers and the SPI target port (10). -/

/-- A doorbell copies the command slot or stays pending, a pending one copies later, and an acknowledgement frees the staged item (10,
R286, R289, R290). -/
def Obligations.MailboxEventsComplete : Prop :=
  ∀ (t : Nat) (n : Fin 16) (s : State),
    (takesCommand s n → happens (.doorbellRing t n) t [.mbx, .entries] s fun b u => slotCopied b u n)
    ∧ (s.power.ready = true → (getSess s n).isOpen = true → 4 ≤ (getMbx s n).queue.length →
      happens (.doorbellRing t n) t [.mbx] s fun b u => getMbx u n = { getMbx b n with bell := true } ∧ elsewhere getMbx b u n)
    ∧ (takesCommand s n → (getMbx s n).bell = true →
      happens (.doorbellPendingCopy t n) t [.mbx, .entries] s fun b u => slotCopied b u n)
    ∧ (s.power.ready = true → (getSess s n).isOpen = true → (stagedItem (getMbx s n)).isSome = true →
      happens (.replyAcknowledge t n) t [.mbx, .net] s fun b u => itemGone b u n)

/-- Writes of the front registers by their field map, and the window data register: its write lands in a page that the session holds, its
read latches, and both step the address (10, R306, R307; 17, R460). -/
def Obligations.FrontRegistersComplete : Prop :=
  ∀ (t : Nat) (s : State) (w : Word),
    let next := s.front.winAddr.withFld 23 14 (winWord s + 1)
    (s.power.ready = true →
      (happens (.frontRegisterWrite t 2 w) t [.flags] s fun b u =>
        let kept := b.front.irqFlags &&& ~~~(w &&& 0x1FE)
        u.front.irqFlags = if u.power.failLevel = b.power.failLevel then kept else kept ||| 4)
      ∧ (happens (.frontRegisterWrite t 3 w) t [.front] s fun b u => frontAs u { b.front with irqEn := w &&& 0x1FF })
      ∧ (happens (.frontRegisterWrite t 6 w) t [.front] s fun b u => frontAs u { b.front with winAddr := w &&& 0xFFFFFC00 })
      ∧ (happens (.frontRegisterWrite t 13 w) t [.front] s fun b u => frontAs u { b.front with scratch := w })
      ∧ (∀ r : Fin 16, r ∉ [2, 3, 4, 5, 6, 7, 13] → happens (.frontRegisterWrite t r w) t [] s fun _ _ => True)
      ∧ (namedMbx s w = [] → happens (.frontRegisterWrite t 4 w) t [] s (fun _ _ => True)
        ∧ happens (.frontRegisterWrite t 5 w) t [] s fun _ _ => True)
      ∧ (∀ n : Nat, namedMbx s w = [n] → takesCommand s n → happens (.frontRegisterWrite t 4 w) t [.mbx, .entries] s fun b u => slotCopied b u n)
      ∧ (∀ n : Nat, namedMbx s w = [n] → (stagedItem (getMbx s n)).isSome = true →
        happens (.frontRegisterWrite t 5 w) t [.mbx, .net] s fun b u => itemGone b u n)
      ∧ (boundSpit s (winSess s) = true → holds s (winSess s) (winPage s) = true → ∀ c ∈ [Instr.winDataWrite t w, .frontRegisterWrite t 7 w],
        happens c t [.win, .front] s fun b u => pageWritten b u (winPage s) (4 * winWord s) (le 4 w.toNat) ∧ frontAs u { b.front with winAddr := next }))
    ∧ (s.power.ready = false → (∀ r : Fin 16, happens (.frontRegisterWrite t r w) t [] s fun _ _ => True)
      ∧ happens (.winDataWrite t w) t [] s fun _ _ => True)
    ∧ (s.power.phase ≠ .held → happens (.winDataRead t) t [.front] s fun b u =>
        frontAs u { b.front with winData := BitVec.ofNat 32 (ofLe (readBefore b (winPage s) (4 * winWord s) 4)), winAddr := next })
    ∧ (s.power.phase = .held → happens (.winDataRead t) t [] s fun _ _ => True)

/-- A whole transaction of each type answers its status byte and its data, and acts as its type says (10, R301, R302, R304, R305, R306).
-/
def Obligations.SpitTransactionsComplete : Prop :=
  ∀ (t : Nat) (s : State) (m : List Byte) (part : Fin 8),
    let c := fun typ => spitCount typ m
    let o := fun typ => spitByte typ m
    let data := fun typ => slice m (spitHead typ) (spitCount typ m)
    let n := u8 m 0 % 16
    let word := fun (i : Nat) => BitVec.ofNat 32 (u32 (data 2) (4 * i - o 2))
    let covers := fun (i : Nat) => o 2 ≤ 4 * i ∧ 4 * i + 4 ≤ o 2 + c 2
    (spitWhole s 0 m → happens (.spitStatus t m part) t [.sess, .front] s fun b u =>
      frontAs u { b.front with miso := List.replicate (spitBytes m part) (statusByte b), frameErr := false } ∧ u.sess = (renewSpit b).sess)
    ∧ (spitWhole s 1 m → ¬ (o 1 ≤ 28 ∧ 32 ≤ o 1 + c 1) → happens (.regRead t m part) t [.sess, .regs, .front] s fun b u =>
      let x := latchFront (o 1) (c 1) (spitActs b 1 m part)
      frontAs u { b.front with
        miso := padTo (spitBytes m part) (statusByte b :: (zeros 2 ++ 0x81 :: slice (frontBytes x) (o 1) (c 1)))
        frameErr := false, snaps := x.front.snaps })
    ∧ (spitWhole s 2 m → ¬ covers 2 → ¬ covers 4 → ¬ covers 5 → ¬ covers 7 → happens (.regWrite t m part) t [.sess, .regs, .front] s fun b u =>
      frontAs u { b.front with
        miso := padTo (spitBytes m part) [statusByte b], frameErr := false
        irqEn := if covers 3 then word 3 &&& 0x1FF else b.front.irqEn
        winAddr := if covers 6 then word 6 &&& 0xFFFFFC00 else b.front.winAddr
        scratch := if covers 13 then word 13 else b.front.scratch })
    ∧ (spitWhole s 3 m → (u8 m 0).testBit 4 = false → happens (.mbxWrite t m part) t [.sess, .regs, .front, .mbx] s fun b u =>
      getMbx u n = { getMbx b n with slot := Table.putAll 0 (getMbx b n).slot (o 3) (data 3) } ∧ elsewhere getMbx b u n
        ∧ spitAnswers b u m part [] false)
    ∧ (let put := fun x => setMbx n { getMbx x n with slot := Table.putAll 0 (getMbx x n).slot (o 3) (data 3) } x
      spitWhole s 3 m → (u8 m 0).testBit 4 = true → takesCommand (put s) n →
      happens (.mbxWrite t m part) t [.sess, .regs, .front, .mbx, .entries] s fun b u => slotCopied (put b) u n ∧ spitAnswers b u m part [] false)
    ∧ (∀ x : Item, spitWhole s 4 m → boundSpit s n = true → stagedItem (getMbx s n) = some x →
      happens (.mbxRead t m part) t [.sess, .regs, .front, .mbx, .net] s fun b u =>
        spitAnswers b u m part (zeros 2 ++ 0x81 :: slice (replySlot (getMbx b n)) (o 4) (c 4)) false
        ∧ (if (u8 m 0).testBit 4 = true ∧ o 4 = 0 ∧ 8 + x.payload.length ≤ c 4 then itemGone b u n else u.mbx = b.mbx))
    ∧ (spitWhole s 4 m → (boundSpit s n = false ∨ stagedItem (getMbx s n) = none) →
      happens (.mbxRead t m part) t [.sess, .regs, .front] s fun b u => spitAnswers b u m part (zeros 2 ++ [0x21]) false)
    ∧ (spitWhole s 5 m → u8 m 0 % 4 = 0 → holds s (u16 m 2 / 4096) (u8 m 1) = true →
      happens (.winWrite t m part) t [.sess, .regs, .front, .win] s fun b u =>
        pageWritten b u (u8 m 1) (o 5) (data 5) ∧ spitAnswers b u m part [] false)
    ∧ (spitWhole s 6 m → ((devPage (u8 m 1) = true → pageGen (atTime t s) (u8 m 1) % 2 = 0) ∧ s.front.winBusy = false) →
      happens (.winRead t m part) t [.sess, .regs, .front] s fun b u =>
        spitAnswers b u m part (zeros 5 ++ 0x81 :: readPage b (u8 m 1) (o 6) (c 6)) false)

/-- A refused transaction, and a partial command byte, sets FRAME_ERR and answers its status byte alone; it is counted, and raises its
interrupt flag where no SPIT session could take it for a command (10, R301, R303, Table 10.18). -/
def Obligations.SpitRefusalsComplete : Prop :=
  ∀ (t : Nat) (s : State) (m : List Byte) (part : Fin 8),
    let bad := fun (b u : State) (lo : Nat) => u.front.frameErr = true ∧ yf u R.spitErr (lo + 7) lo = min (yf b R.spitErr (lo + 7) lo + 1) 255
    (m ≠ [] → u8 m 0 / 32 = 7 → s.power.phase ≠ .held → (s.power.fw && boundSpit s 0) = false →
      happens (.spitRefusedType t m part) t [.sess, .regs, .front, .flags] s fun b u =>
        spitAnswers b u m part [] true ∧ bad b u 0 ∧ u.front.irqFlags &&& 0x100 = 0x100)
    ∧ (∀ x ∈ [(0, Instr.spitStatus t m part), (1, .regRead t m part), (2, .regWrite t m part), (3, .mbxWrite t m part), (4, .mbxRead t m part),
        (5, .winWrite t m part), (6, .winRead t m part), (7, .spitRefusedType t m part)],
      m ≠ [] → u8 m 0 / 32 = x.1 → s.power.phase ≠ .held → spitRefused s x.1 m = true →
        leads x.2 s fun u => u.front.frameErr = true ∧ u.front.miso = padTo (spitBytes m part) [statusByte (atTime t s)])
    ∧ (∀ bits : Fin 8, bits ≠ 0 → s.power.phase ≠ .held → (s.power.fw && boundSpit s 0) = false →
      happens (.spitPartialCommandByte t bits) t [.regs, .front, .flags] s fun b u =>
        frontAs u { b.front with miso := [statusByte b], frameErr := true } ∧ bad b u 24 ∧ u.front.irqFlags &&& 0x100 = 0x100)
    ∧ (s.power.phase = .held → ∀ bits : Fin 8, happens (.spitPartialCommandByte t bits) t [] s fun _ _ => True)

/-! Ethernet, datagrams and CAN (11). -/

/-- A frame of port 0 that is forwarded, one that is not supported, an aged entry, the link going up and down, a PLCA cycle, an absent
node, and the answers to ARP and echo (11, R312 to R317, R320). -/
def Obligations.NetworkEventsComplete : Prop :=
  ∀ (t : Nat) (s : State),
    (∀ f : EthFrame, f.port.val = 0 → t1On s = true → f.collision = false → f.unsupported = true → portShadow s 0 = false →
      happens (.ethernetFrame t f) t [.regs] s fun b u => yf u R.netSt 31 24 = min (yf b R.netSt 31 24 + 1) 255)
    ∧ (∀ f : EthFrame,
      let vid := if f.tagged then f.vid else pvid s 0
      f.port.val = 0 → t1On s = true → f.collision = false → f.unsupported = false → yf s R.swPort 19 10 = 0 → yf s (R.swPort + 2) 19 10 = 0 →
      (f.tagged = true → inVlan s 0 vid = true) → (f.tagged = false → yf s R.swPort 9 9 = 0) →
      happens (.ethernetFrame t f) t [.net, .regs, .faults] s fun b u =>
        let x := learn 0 f.src vid b
        let goes := (lookup x f.dst vid).filter fun q => q ≠ 0 && inVlan x q vid
        let g := fun p => outFrame x p vid f
        u.net.learned = x.net.learned
        ∧ Table.get [] u.net.egress 1 = Table.get [] b.net.egress 1 ++ (if 1 ∈ goes ∧ t1sOn b = true then [(isHigh f, .frame 1 (g 1) (isHigh f))] else [])
        ∧ u.net.out = (if 2 ∈ goes ∧ vid = yf b R.ipMisc 25 14 ∧ b.power.fw = true then .frame 2 (g 2) (isHigh f) :: b.net.out else b.net.out))
    ∧ (∀ mac vid, happens (.learnedEntryAgeOut t mac vid) t [.net] s fun b u =>
        u.net.learned = b.net.learned.filter fun e => !(e.mac == mac && e.vid == vid && e.seen + yf b R.netSw 31 16 * sec ≤ b.now))
    ∧ (netRuns s = true → yf s R.netCfg 31 31 = 1 → s.net.link = false →
      happens (.t1LinkUp t) t [.net, .log] s fun b u =>
        let x := { b with net := { b.net with link := true } }
        u.net.link = true ∧ (b.power.fw = false → u.net.arpDue = true ∧ u.net.out = b.net.out)
        ∧ (b.power.fw = true → u.net.arpDue = false ∧ (ownGoes x 0 → ownSent b u 0 (.gratuitousArp (reg b yardDie R.ipAddr)))))
    ∧ (s.net.link = true → happens (.t1LinkDown t) t [.net, .faults, .log] s fun b u =>
        u.net.link = false ∧ u.net.learned = b.net.learned.filter fun e => e.port ≠ 0)
    ∧ (t1sOn s = true → s.power.fail = none → happens (.plcaCycle t) t [.net] s fun b u =>
        let q := Table.get [] b.net.egress 1
        let burst := ((q.filter (·.1)) ++ (q.filter fun x => !x.1)).take (yf b R.netCfg 15 8 + 1)
        u.net.out = (burst.map (·.2)).reverse ++ .beacon (nodeCount b) burst.length :: b.net.out
        ∧ Table.get [] u.net.egress 1 = burst.foldl (fun l x => l.erase x) q)
    ∧ (∀ n : Fin 32, n ≠ 0 → yf s R.t1sPres n n = 1 → Table.get 0 s.net.nodeSeen n + yf s R.netCfg 7 4 * sec ≤ s.now →
      happens (.nodePresenceTimeout t n) t [.regs, .faults, .log] s fun _ u => yf u R.t1sPres n n = 0)
    ∧ (∀ r : IpRequest, cpuTakes s r.port → ownGoes s r.port.val → r.dstIp = reg s yardDie R.ipAddr →
      happens (.arpRequest t r) t [.net] s fun b u => ownSent b u r.port.val (.arpReply r.mac r.srcIp)
        ∧ u.net.arp = ((r.srcIp, r.mac) :: b.net.arp.filter fun e => e.1 ≠ r.srcIp).take 16)
    ∧ ∀ r : IpRequest, cpuTakes s r.port → r.options = false → r.fragment = false → r.headerOk = true → r.dstIp = reg s yardDie R.ipAddr →
      mayReach s r.port.val r.srcIp → happens (.icmpEchoRequest t r) t [.net] s fun b u => ownSent b u r.port.val (.echoReply r.srcIp r.data)

/-- COMMAND, once and repeated, and ACK of a session; the resending of its reply; WRITE and READ of the window, one of a page under update
included, and the delayed copy (11, R321 to R326; 10, R300). -/
def Obligations.HostDatagramsComplete : Prop :=
  ∀ (t : Nat) (s : State),
    let b8 := fun (d : Datagram) => d.body.drop 8
    let taken := fun (d : Datagram) => cpuTakes s d.port ∧ d.options = false ∧ d.fragment = false ∧ d.headerOk = true
      ∧ d.dstIp = reg s yardDie R.ipAddr
    let jhp := fun (d : Datagram) (type : Nat) => taken d ∧ s.power.ready = true ∧ d.dport = jhpPort s ∧ d.dport ≠ winPort s
      ∧ d.sumOk = true ∧ 8 ≤ d.body.length ∧ u16 d.body 0 = 0x4A48 ∧ u8 d.body 2 = type ∧ u16 d.body 6 = 0
    let win := fun (d : Datagram) (type n : Nat) => taken d ∧ s.power.ready = true ∧ d.dport = winPort s ∧ d.sumOk = true
      ∧ winFormed d.body = true ∧ u8 d.body 2 = type ∧ u8 d.body 6 = n ∧ winSession s d n = some n ∧ 1 ≤ u16 d.body 10
      ∧ u16 d.body 10 ≤ 1408 ∧ u16 d.body 8 + u16 d.body 10 ≤ 4096 ∧ mayReach s d.port.val d.ip
    let reply := fun (b u : State) (d : Datagram) (type code : Nat) (data : List Byte) =>
      ownSent b u d.port.val <| .udp d.ip (winPort b) d.sport (le 2 0x5748 ++ le 1 type ++ slice (padTo 16 d.body) 3 11 ++ le 1 code ++ zeros 1 ++ data)
    (∀ (d : Datagram) (n : Nat), jhp d 1 → 8 ≤ (b8 d).length → (b8 d).length = 8 + u16 (b8 d) 4 → sourceSession s (sourceOf d) = some n →
      u8 d.body 3 = n → u16 (b8 d) 0 ≠ 0x0101 → (getMbx s n).bell = false → (getSess s n).cmdSeq ≠ some (u16 d.body 4) →
      takesCommand (slotPut n (b8 d) s) n →
      happens (.jhpCommandDatagram t d) t [.net, .sess, .mbx, .entries] s fun b u =>
        slotCopied (slotPut n (b8 d) b) u n ∧ (getSess u n).cmdSeq = some (u16 d.body 4) ∧ (getSess u n).last = b.now ∧ elsewhere getSess b u n)
    ∧ (∀ (d : Datagram) (n : Nat), jhp d 1 → 8 ≤ (b8 d).length → (b8 d).length = 8 + u16 (b8 d) 4 → sourceSession s (sourceOf d) = some n →
      u8 d.body 3 = n → u16 (b8 d) 0 ≠ 0x0101 → (getMbx s n).bell = false → (getSess s n).cmdSeq = some (u16 d.body 4) →
      happens (.jhpCommandDatagram t d) t [.net, .sess] s fun b u => u.net.out = b.net.out ∧ elsewhere getSess b u n)
    ∧ (∀ (d : Datagram) (n : Nat) (x : Item), jhp d 2 → (b8 d).length = 2 → sourceSession s (sourceOf d) = some n → u8 d.body 3 = n →
      stagedItem (getMbx s n) = some x → x.tag = u16 (b8 d) 0 →
      happens (.jhpAckDatagram t d) t [.net, .mbx] s fun b u => itemGone b u n)
    ∧ (∀ (n : Fin 16) (x : Item) (p : Fin 2) (ip : Word) (sp : BitVec 16), (getSess s n).src = .udp p ip sp → s.power.ready = true →
      (getSess s n).isOpen = true → stagedItem (getMbx s n) = some x → x.sentAt + yf s R.ipMisc 13 7 * ms ≤ s.now → mayReach s p.val ip →
      happens (.replyResend t n) t [.net, .mbx] s fun b u =>
        ownSent b u p.val (.udp ip (jhpPort b) sp (jhpHead 0x81 n ++ itemSlot x))
        ∧ (stagedItem (getMbx u n)).map (·.sentAt) = some b.now ∧ elsewhere getMbx b u n)
    ∧ (∀ (d : Datagram) (n : Nat), win d 0x11 n → u8 d.body 3 = 0 → holds s n (u8 d.body 7) = true →
      (∀ w, (getSess s n).writeSeq = some w → w.1 ≠ u16 d.body 4) →
      happens (.windowWriteDatagram t d) t [.net, .sess, .win] s fun b u =>
        pageWritten b u (u8 d.body 7) (u16 d.body 8) (d.body.drop 16) ∧ (getSess u n).writeSeq = some (u16 d.body 4, 0)
        ∧ elsewhere getSess b u n ∧ reply b u d 0x13 0 [])
    ∧ (∀ (d : Datagram) (n : Nat), win d 0x12 n → (devPage (u8 d.body 7) = true → pageGen (atTime t s) (u8 d.body 7) % 2 = 0) →
      happens (.windowReadDatagram t d) t [.net, .sess] s fun b u =>
        reply b u d 0x14 0 (readPage b (u8 d.body 7) (u16 d.body 8) (u16 d.body 10)))
    ∧ (∀ (d : Datagram) (n : Nat), win d 0x12 n → devPage (u8 d.body 7) = true → pageGen (atTime t s) (u8 d.body 7) % 2 = 1 →
      happens (.windowReadDatagram t d) t [.net, .sess, .win] s fun b u => u.net.out = b.net.out
        ∧ u.win = { b.win with delayed := b.win.delayed ++ [⟨d, u8 d.body 7, u16 d.body 8, u16 d.body 10⟩] })
    ∧ ∀ r : DelayedRead, (s.win.delayed.find? fun r => decide (pageGen (atTime t s) r.page % 2 = 0)) = some r → mayReach s r.d.port.val r.d.ip →
      happens (.windowReadDelayedCopy t) t [.net, .win] s fun b u =>
        reply b u r.d 0x14 0 (readPage b (u8 r.d.body 7) (u16 r.d.body 8) (u16 r.d.body 10))
        ∧ u.win = { b.win with delayed := b.win.delayed.erase r }

/-- The JHP frames of a session, a VALUE and a TRIGGER frame of the message map, bus-off and its end, error passive, a lapsed value and a
status frame (11, R328 to R335). -/
def Obligations.CanEventsComplete : Prop :=
  ∀ (t : Nat) (s : State) (c : Fin 2),
    let st := R.canSt + 8 * c.val
    (∀ (f : CanFrame) (k : Fin 8) (n : Nat), jhpId s c f = some (4 * k.val) → canHears s c = true → s.power.ready = true →
      sourceSession s (.can c k) = some n → f.fdf = true → 8 ≤ f.data.length → 8 + u16 f.data 4 ≤ f.data.length → (getMbx s n).bell = false →
      takesCommand (slotPut n (f.data.take (8 + u16 f.data 4)) s) n →
      happens (.canJhpCommandFrame t c f) t [.sess, .mbx, .entries] s fun b u =>
        slotCopied (slotPut n (f.data.take (8 + u16 f.data 4)) b) u n ∧ (getSess u n).last = b.now ∧ elsewhere getSess b u n)
    ∧ (∀ (f : CanFrame) (k : Fin 8) (n : Nat) (x : Item), jhpId s c f = some (4 * k.val + 2) → canHears s c = true → s.power.ready = true →
      2 ≤ f.data.length → sourceSession s (.can c k) = some n → stagedItem (getMbx s n) = some x → x.tag = u16 f.data 0 →
      happens (.canJhpAckFrame t c f) t [.net, .mbx] s fun b u => itemGone b u n)
    ∧ (∀ (n : Fin 16) (x : Item) (k : Fin 8), (getSess s n).src = .can c k → s.power.ready = true → (getSess s n).isOpen = true →
      stagedItem (getMbx s n) = some x → x.sentAt + yf s R.ipMisc 13 7 * ms ≤ s.now → canOn s c = true → s.power.fail = none →
      happens (.canReplyResend t n) t [.net, .mbx] s fun b u =>
        u.net.out = .can c (canBase b c + 4 * k.val + 1) (canIde b c) true (yf b (R.canCfg + 8 * c.val) 30 30 == 1) (padTo (fdLen (itemSlot x).length) (itemSlot x)) :: b.net.out
        ∧ (stagedItem (getMbx u n)).map (·.sentAt) = some b.now ∧ elsewhere getMbx b u n)
    ∧ (∀ (f : CanFrame) (i : Nat), jhpId s c f = none → canHears s c = true → (List.range 64).filter (fun i => entryMatches s c i f) = [i] →
      mapActive s c i = true → tooShort s c i f = false → (getFn s (mapTarget s c i)).holder = .map →
      happens (.canDataFrame t c f) t [.can, .fns, .scene] s fun b u =>
        let v := fieldOf b c i f
        let fn := mapTarget b c i
        mapRun u c i = { mapRun b c i with last := some v, seen := b.now, timedOut := false }
        ∧ getFn u fn = { getFn b fn with lapsed := false } ∧ elsewhere getFn b u fn
        ∧ Table.get 0 u.scene.heldValues fn = v * 65535 / (2 ^ mapWidth b c i - 1) + 1 ∧ fn ∉ u.scene.heldLapses)
    ∧ (∀ (f : CanFrame) (i : Nat), jhpId s c f = none → canHears s c = true → (List.range 64).filter (fun i => entryMatches s c i f) = [i] →
      mapKind s c i = 1 → tooShort s c i f = false → (fieldOf s c i f ≠ mapPrio s c i ∨ (mapRun s c i).trig = some (fieldOf s c i f)) →
      happens (.canDataFrame t c f) t [.can] s fun b u => mapRun u c i = { mapRun b c i with trig := some (fieldOf b c i f) })
    ∧ (netRuns s = true → canOn s c = true → ∀ tec : Byte, happens (.canBusOff t c tec) t [.log, .can, .regs] s fun b u =>
        getCan u c = { getCan b c with bus := 2, held := yf b (R.canCfg + 8 * c.val) 29 29 == 1 } ∧ elsewhere getCan b u c
        ∧ yf u st 15 8 = tec.toNat)
    ∧ ((getCan s c).bus = 2 → (getCan s c).held = false → happens (.canBusOffRecovered t c) t [.can, .regs] s fun b u =>
        getCan u c = { getCan b c with bus := 0 } ∧ elsewhere getCan b u c ∧ yf u st 15 8 = 0 ∧ yf u st 7 0 = 0)
    ∧ (netRuns s = true → canOn s c = true → (getCan s c).bus ≠ 1 → ∀ tec rec : Byte, happens (.canErrPassive t c tec rec) t [.log, .can, .regs] s
      fun b u => getCan u c = { getCan b c with bus := 1 } ∧ elsewhere getCan b u c ∧ yf u st 15 8 = tec.toNat ∧ yf u st 7 0 = rec.toNat)
    ∧ (∀ i : Fin 64, s.power.fw = true → mapActive s c i = true → mapTime s c i ≠ 0 → (mapRun s c i).timedOut = false →
      (mapRun s c i).seen + mapTime s c i * 10 * ms ≤ s.now →
      happens (.canValueTimeout t c i) t [.log, .fns, .scene, .can] s fun b u =>
        let fn := mapTarget b c i
        mapRun u c i = { mapRun b c i with timedOut := true } ∧ elsewhere getFn b u fn
        ∧ getFn u fn = (if (getFn b fn).holder = .map then { getFn b fn with lapsed := true } else getFn b fn)
        ∧ ((getFn b fn).holder = .map → fn ∈ u.scene.heldLapses))
    ∧ ∀ i : Fin 64, canHears s c = true → mapValid s c i = true → mapKind s c i = 2 → (mapRun s c i).sentAt + mapTime s c i * 10 * ms ≤ s.now →
      (mapByte s c i = 1 → (mapWord s c i 0).bit 30 = true) → s.power.fail = none →
      happens (.canStatusTx t c i) t [.net, .can] s fun b u =>
        let w := mapWord b c i 0
        u.net.out = .can c (w.fld 28 0) (w.bit 29) (w.bit 30) (w.bit 30 && yf b (R.canCfg + 8 * c.val) 30 30 == 1) (if mapByte b c i = 1 then functionsFrame b else deviceFrame b) :: b.net.out
        ∧ u.net.counter = b.net.counter + 1 ∧ mapRun u c i = { mapRun b c i with sentAt := b.now }

/-! Paddock engines, SPI ports and the books (12 to 14). -/

/-- NOP, BR, HOLD and FLAG by the word at the lane's PC; and an instruction of a lane that does not run or whose word is another does
nothing (13, R360, R361, R366, R369). -/
def Obligations.LaneControlCompletes : Prop :=
  ∀ (t : Nat) (g : Fin 16) (s : State) (pins : BitVec 24),
    let w := laneWord s g
    let x := getLane s g
    let pin := fun j => lanePin s g j pins
    (laneRuns s g 0x0 = true → laneTurns (.nop t g) t g s fun _ x => goesOn x)
    ∧ (laneRuns s g 0x1 = true →
      let k := w.fld 27 24
      let taken := k = 0 ∨ (k = 1 ∧ x.ca = 0) ∨ (k = 2 ∧ x.ca ≠ 0) ∨ (k = 3 ∧ x.cb = 0) ∨ (k = 4 ∧ x.cb ≠ 0) ∨ (k = 5 ∧ pin (w.fld 23 21) = true)
        ∨ (k = 6 ∧ pin (w.fld 23 21) = false) ∨ (k = 7 ∧ x.fill = 0) ∨ (k = 8 ∧ laneW s g ≤ x.fill)
        ∨ (k = 9 ∧ x.fill ≠ 0 ∧ x.sh.toNat.testBit (if laneLsb s g then 0 else x.fill - 1) = true)
      laneTurns (.br t g pins) t g s fun w x => { x with
        ca := if k = 2 ∧ x.ca ≠ 0 then x.ca - 1 else x.ca, cb := if k = 4 ∧ x.cb ≠ 0 then x.cb - 1 else x.cb
        pc := if taken then w.fld 8 0 else (x.pc + 1) % 512, st := .running })
    ∧ (laneRuns s g 0x2 = true →
      (w.fld 27 26 = 0 → laneTurns (.hold t g pins) t g s fun w x => if pin (w.fld 24 22) = w.bit 25 then goesOn x else stalls x)
      ∧ (w.fld 27 26 = 1 → laneTurns (.hold t g pins) t g s fun _ x => if x.ca = 0 then goesOn x else stalls { x with ca := x.ca - 1 })
      ∧ (w.fld 27 26 = 2 → laneTurns (.hold t g pins) t g s fun _ x => if x.cb = 0 then goesOn x else stalls { x with cb := x.cb - 1 }))
    ∧ (laneRuns s g 0xA = true →
      let ev := w.fld 5 0
      let known := s.pk.raised.toNat.testBit ev = true
      happens (.flag t g) t [.pk] s fun b u => getLane u g = goesOn (getLane b g) ∧ elsewhere getLane b u g
        ∧ u.pk.raised = (if known then b.pk.raised else BitVec.ofNat 64 (b.pk.raised.toNat + 2 ^ ev))
        ∧ (getPk u (g / 8)).merged = (if known then min 255 ((getPk b (g / 8)).merged + 1) else (getPk b (g / 8)).merged))
    ∧ ∀ c ∈ [(0x0, Instr.nop t g), (0x1, .br t g pins), (0x2, .hold t g pins), (0x3, .sho t g), (0x4, .shi t g pins), (0x5, .lvl t g),
        (0x6, .dir t g), (0x7, .ld t g pins), (0x8, .give t g), (0x9, .take t g), (0xA, .flag t g)],
      laneRuns s g c.1 = false → happens c.2 t [] s fun _ _ => True

/-- SHO, SHI, LVL, DIR, LD, GIVE and TAKE on the lane's registers and FIFOs (13, R362 to R365, R367). -/
def Obligations.LaneDataCompletes : Prop :=
  ∀ (t : Nat) (g : Fin 16) (s : State) (pins : BitVec 24),
    let w := laneWord s g
    let x := getLane s g
    let n := w.fld 25 21 + 1
    let lsb := laneLsb s g
    let bits := fun (v m : Byte → Nat → Bool) (b a : Byte) => ∀ p < 8, a.toNat.testBit p = if m b p then v b p else b.toNat.testBit p
    let others := fun (b u : State) => elsewhere getLane b u g ∧ u.pk.engines = b.pk.engines ∧ u.pk.raised = b.pk.raised
    (laneRuns s g 0x3 = true → happens (.sho t g) t [.pk] s fun b u =>
      let v := shoValue lsb n x
      getLane u g = goesOn { x with
        fill := x.fill - n, sh := BitVec.ofNat 32 (if lsb then x.sh.toNat / 2 ^ n else x.sh.toNat % 2 ^ (x.fill - n))
        level := (getLane u g).level, ca := if w.fld 27 26 = 1 then BitVec.ofNat 16 v else x.ca, cb := if w.fld 27 26 = 2 then BitVec.ofNat 16 v else x.cb }
      ∧ bits (fun _ p => v.testBit (if lsb then p - w.fld 20 18 else n - 1 - (p - w.fld 20 18)))
          (fun _ p => w.fld 27 26 = 0 ∧ w.fld 20 18 ≤ p ∧ p < w.fld 20 18 + n) x.level (getLane u g).level ∧ others b u)
    ∧ (laneRuns s g 0x4 = true → laneTurns (.shi t g pins) t g s fun w x =>
      let v := (if w.fld 27 26 = 0 then lanePins s g pins / 2 ^ w.fld 20 18 else if w.fld 27 26 = 1 then x.ca.toNat
        else if w.fld 27 26 = 2 then x.cb.toNat else 0) % 2 ^ n
      goesOn { x with sh := BitVec.ofNat 32 (if lsb then x.sh.toNat + v * 2 ^ x.fill else x.sh.toNat * 2 ^ n + v), fill := min 32 (x.fill + n) })
    ∧ (laneRuns s g 0x5 = true → happens (.lvl t g) t [.pk] s fun b u => getLane u g = goesOn { x with level := (getLane u g).level }
      ∧ bits (fun _ p => (w.fld 7 0).testBit p) (fun _ p => (w.fld 15 8).testBit p) x.level (getLane u g).level ∧ others b u)
    ∧ (laneRuns s g 0x6 = true → happens (.dir t g) t [.pk] s fun b u => getLane u g = goesOn { x with dir := (getLane u g).dir }
      ∧ bits (fun _ p => (w.fld 7 0).testBit p) (fun _ p => (w.fld 15 8).testBit p) x.dir (getLane u g).dir ∧ others b u)
    ∧ (laneRuns s g 0x7 = true → w.fld 27 26 ≤ 2 → w.fld 25 23 ≤ 4 → laneTurns (.ld t g pins) t g s fun w x =>
      let v := if w.fld 25 23 = 0 then x.ca.toNat else if w.fld 25 23 = 1 then x.cb.toNat else if w.fld 25 23 = 2 then x.sh.toNat
        else if w.fld 25 23 = 3 then lanePins s g pins else w.fld 15 0
      goesOn (if w.fld 27 26 = 0 then { x with ca := BitVec.ofNat 16 v } else if w.fld 27 26 = 1 then { x with cb := BitVec.ofNat 16 v }
        else { x with sh := BitVec.ofNat 32 (v % 2 ^ laneW s g), fill := laneW s g }))
    ∧ (laneRuns s g 0x8 = true → laneTurns (.give t g) t g s fun w x =>
      if x.rx.length < 4 then goesOn { x with rx := x.rx ++ [x.sh], sh := 0, fill := 0 }
      else if w.bit 27 then goesOn { x with rx := x.rx.take 3 ++ [x.sh], sh := 0, fill := 0, stale := true, staleN := min 255 (x.staleN + 1) }
      else stalls x)
    ∧ (laneRuns s g 0x9 = true → laneTurns (.take t g) t g s fun w x =>
      if x.tx ≠ [] then goesOn { x with tx := x.tx.drop 1, sh := BitVec.ofNat 32 ((x.tx.headD 0).toNat % 2 ^ laneW s g), fill := laneW s g }
      else if w.bit 27 then goesOn { x with stale := true, staleN := min 255 (x.staleN + 1) }
      else stalls x)

/-- A raised event is accepted, and raises its trigger where PK_TRGEN names it; and a word moves between a lane's FIFO and its queue (13,
R369, R370; 06, R188). -/
def Obligations.PaddockEventsComplete : Prop :=
  ∀ (t : Nat) (s : State),
    (∀ ev : Fin 64, s.power.fw = true → s.pk.raised.toNat.testBit ev = true → (pkTrgEn s).testBit ev = false →
      happens (.paddockEventAccept t ev) t [.pk, .regs] s fun b u =>
        u.pk = { b.pk with raised := BitVec.ofNat 64 (b.pk.raised.toNat - 2 ^ ev.val) } ∧ yf u (R.pkEvtLo + ev / 32) (ev % 32) (ev % 32) = 1)
    ∧ (∀ ev : Fin 64, s.power.fw = true → s.pk.raised.toNat.testBit ev = true → (pkTrgEn s).testBit ev = true → safeOn s = false →
      trigValid (trigEntry s ev) = true →
      happens (.paddockEventAccept t ev) t [.pk, .regs, .pat, .links] s fun b u =>
        u.pk = { b.pk with raised := BitVec.ofNat 64 (b.pk.raised.toNat - 2 ^ ev.val) } ∧ yf u (R.pkEvtLo + ev / 32) (ev % 32) (ev % 32) = 1
        ∧ raisedAs b u ev)
    ∧ (∀ (g : Fin 16) (w : Word) (r : List Word), s.power.fw = true → (getLane s g).txq = w :: r → (getLane s g).tx.length < 4 →
      happens (.pkTxQueueMove t g) t [.pk] s fun b u => getLane u g = { getLane b g with txq := r, tx := (getLane b g).tx ++ [w] }
        ∧ elsewhere getLane b u g ∧ u.pk.engines = b.pk.engines)
    ∧ ∀ (g : Fin 16) (w : Word) (r : List Word), s.power.fw = true → (getLane s g).rx = w :: r → (getLane s g).rxq.length < 256 →
      happens (.pkRxQueueMove t g) t [.pk] s fun b u => getLane u g = { getLane b g with rx := r, rxq := (getLane b g).rxq ++ [w] }
        ∧ elsewhere getLane b u g ∧ u.pk.engines = b.pk.engines

/-- A transfer and a copy end with their reply, and a held frame times out (12, R345, R350, R354). -/
def Obligations.SpiEventsComplete : Prop :=
  ∀ (t : Nat) (s : State),
    (∀ (p : Fin 3) (x : Xfer), (getSpim s p).xfer = some x → xferEnd x ≤ s.now →
      happens (.spimTransferDone t p) t [.mbx, .net, .xip, .spim, .win] s fun b u =>
        let data := rxBytes x x.words.length 0
        let head := le 2 x.words.length ++ [0, 0]
        getSpim u p = { getSpim b p with
          xfer := none, frame := if x.hold then some (x.sess, x.select, b.now) else none, idle := decide (2 ≤ fmtMode x.fmt), lastEnd := b.now }
        ∧ elsewhere getSpim b u p ∧ answeredOk b u x.sess x.entry (if x.page.isSome then head else head ++ data)
        ∧ (∀ g off, x.page = some (g, off) → u.win.mem = Table.putAll 0 b.win.mem (g * 4096 + off) data)
        ∧ (p = 0 → x.select = yf b R.xipCfg 30 28 → u.xip.lines = []) ∧ (p ≠ 0 → u.xip = b.xip))
    ∧ (∀ (p : Fin 3) (n q since : Nat), (getSpim s p).xfer = none → (getSpim s p).frame = some (n, q, since) →
      since + fmtHold (bindFmt s p q) * ms ≤ s.now →
      happens (.spimHoldTimeout t p) t [.spim, .log] s fun b u =>
        getSpim u p = { getSpim b p with frame := none, lastEnd := b.now, timeouts := min 255 ((getSpim b p).timeouts + 1) } ∧ elsewhere getSpim b u p)
    ∧ ∀ c : Copy, s.xip.copy = some c → (copyLines c).length ≤ (copyProgress (atTime t s) c).1 →
      happens (.xipCopyDone t) t [.mbx, .net, .xip, .win] s fun b u =>
        let n := (copyProgress b c).1
        let k := if n = 0 then 0 else copyBytes c n
        u.xip = ⟨none, (copyProgress b c).2.2⟩ ∧ u.win.mem = Table.putAll 0 b.win.mem (c.page * 4096 + c.poff) (c.data.take k)
        ∧ answeredOk b u c.sess c.entry (le 2 k ++ [0, 0])

/-- Flushes, snapshots and the accounting are written, or wait for the write window; the operating second and its page; an item of the
store is written (14, R392, R393, R402, R404, R407, R408; 16, R435, R437). -/
def Obligations.BookEventsComplete : Prop :=
  ∀ (t : Nat) (s : State), s.power.fw = true →
    (∀ c ∈ [Instr.logFlushPeriodic t, .logFlushUrgent t],
      (c = .logFlushPeriodic t → s.log.flushAt + 60 ≤ s.log.opS) → (c = .logFlushUrgent t → s.log.urgentAt.isSome = true) → s.store.flushDue = false →
      (writesWait s = true → happens c t [.log, .store] s fun b u => u.store = { b.store with flushDue := true })
      ∧ (writesWait s = false → happens c t [.mbx, .net, .log, .store] s fun b u =>
          u.log.ring = [] ∧ u.log.waits = [] ∧ u.log.urgentAt = none ∧ u.log.flushAt = b.log.opS ∧ u.store = b.store))
    ∧ (s.log.tackPend ≠ [] →
      (writesWait s = true → happens (.tackSnapshotWrite t) t [.store] s fun b u => u.store = { b.store with tackDue := true })
      ∧ (writesWait s = false → happens (.tackSnapshotWrite t) t [.log, .store, .therm] s fun b u =>
          u.log.tackPend = [] ∧ u.log.tackNext = b.log.tackNext + b.log.tackPend.length ∧ u.store = { b.store with tackDue := false }))
    ∧ (s.store.saveDue = false → s.log.saveAt + 600 ≤ s.log.opS →
      (writesWait s = true → happens (.accountingSave t) t [.store] s fun b u => u.store = { b.store with saveDue := true })
      ∧ (writesWait s = false → happens (.accountingSave t) t [.log, .store] s fun b u =>
          let toB := decide (saveOf b.store.accB ≤ saveOf b.store.accA) && b.store.accA.isSome
          let a := some (accountNow b (seqNext (max (saveOf b.store.accA) (saveOf b.store.accB))))
          u.log = { b.log with savedOpS := b.log.opS, saveAt := b.log.opS }
          ∧ u.store = { b.store with
              accA := if toB then b.store.accA else a, accB := if toB then a else b.store.accB, saveDue := false }))
    ∧ (s.power.phase = .done → s.power.mode ≠ .nightWatch → happens (.operatingSecond t) t [.log, .win] s fun b u =>
        u.log = { b.log with opS := (b.log.opS + 1) % 2 ^ 32, wall := if b.log.wallHost then (b.log.wall + 1) % 2 ^ 32 else b.log.wall }
        ∧ u.win.own = b.win.own
        ∧ u.win.mem = Table.putAll 0 b.win.mem (6 * 4096) (le 4 (evenGen b 6 + 2) ++ lampPage { b with log := u.log }))
    ∧ ∀ (w : NvWrite) (rest : List NvWrite), s.store.queue = w :: rest → writesWait s = false →
      happens (.nvItemWrite t true) t [.faults, .links, .scene, .log, .mbx, .net, .store, .win] s fun b u =>
        getItem u w.item = (getItem b w.item).putCopy (getItem b w.item).target.1
          (some { count := (getItem b w.item).target.2, body := w.body, ok := true })
        ∧ elsewhere getItem b u w.item ∧ u.store = { b.store with queue := rest, items := u.store.items }
        ∧ answeredOk b u w.sess w.entry w.reply

/-! Supplies, resets, modes and start-up (02). -/

/-- The supplies, the crystal, PWR_EN, power-on reset, a brownout of VIO or VCORE, RESET_N by its width (a pulse between 100 ns and 1 us
acts or does not by a free value) and the Night Watch oscillator (02, R46, R69, R70, R74, Table 2.8). -/
def Obligations.SuppliesAndResetsComplete : Prop :=
  ∀ (t : Nat) (s : State),
    let p := s.power
    let on := fun (x : Power) => { x with vbat := true, vio := true, vcore := true }
    (suppliesValid s = false → p.check = none → p.resetLow = false → p.resetFlush = false → p.phase = .held → p.mode = .startup →
      happens (.supplyValid t) t [.power, .regs] s fun b u => releasedAs b u (on b.power))
    ∧ (suppliesValid s = false → p.check.isSome = true → p.pwrEn = true →
      happens (.supplyValid t) t [.power] s fun b u => powerAs u { on b.power with check := some ⟨b.now⟩ })
    ∧ (p.phase = .released → happens (.crystalStable t) t [.power] s fun b u => powerAs u { b.power with phase := .clocked, crystal := true })
    ∧ (p.phase ≠ .released → p.check.isSome = true → p.pwrEn = true →
      happens (.crystalStable t) t [.power] s fun b u => powerAs u { b.power with crystal := true })
    ∧ (p.pwrEn = false → p.mode = .startup →
      happens (.pwrEnStartup t) t [.power] s fun b u => powerAs u { b.power with vbat := true, pwrEn := true, pwrEnAt := b.now })
    ∧ (leads (.powerOnReset t) s fun u => powerAs u Power.init ∧ u.store.items = s.store.items
        ∧ leaves [.clock, .queue, .variant, .free, .entries, .store, .log, .net, .therm, .power, .flags] State.reset u)
    ∧ ((p.vio = true ∨ p.vcore = true) → p.pwrEn = false →
      happens (.railBrownout t) t [.power] s fun b u => powerAs u { b.power with vio := false, vcore := false })
    ∧ ((p.vio = true ∨ p.vcore = true) → p.pwrEn = true → p.phase ≠ .held →
      leads (.railBrownout t) s fun u => yardCleared s u ∧ u.power.vio = false ∧ u.power.vcore = false ∧ u.power.fail = none
        ∧ (p.vbat = true → yf u R.rstCause 5 5 = 1 ∧ u.power.lossUnknown = true))
    ∧ (∀ w, w < 100 → happens (.resetNAssert t w) t [] s fun _ _ => True)
    ∧ (∀ w, p.pwrEn = true → p.resetLow = false → us ≤ w ∨ (100 ≤ w ∧ Config.shortReset s.free = true) →
      (p.phase = .held → happens (.resetNAssert t w) t [.power, .regs, .free] s fun b u =>
        powerAs u { b.power with resetLow := true } ∧ yf u R.rstCause 6 6 = 1)
      ∧ (p.phase ≠ .held → leads (.resetNAssert t w) s fun u => yardCleared s u ∧ u.power.resetLow = true ∧ u.power.resetFlush = true
        ∧ u.power.fail = some ⟨(atTime t s).now, false, none, 0, []⟩ ∧ yf u R.rstCause 6 6 = 1
        ∧ yf u R.rstCause 31 24 = min 255 s.log.ring.length ∧ u.log = s.log ∧ u.fns = s.fns))
    ∧ (∀ w, p.pwrEn = true → p.resetLow = false → w < us → 100 ≤ w → Config.shortReset s.free = false →
      happens (.resetNAssert t w) t [.free] s fun b u => u.free = b.free + 1)
    ∧ (p.resetLow = true → mayRelease s →
      happens (.resetNRelease t) t [.power, .regs] s fun b u => releasedAs b u { b.power with resetLow := false })
    ∧ (p.resetLow = true → p.resetFlush = true ∨ p.phase ≠ .held →
      happens (.resetNRelease t) t [.power] s fun b u => powerAs u { b.power with resetLow := false })
    ∧ (happens (.nwOscillatorInBand t) t [.power] s fun b u => powerAs u { b.power with osc := true })

/-- Power-fail ends the outputs and stages the flush; the flush ends, also as the flush of a reset; VBAT returns; the dip resumes (02,
R81, R82, R85, R86). -/
def Obligations.PowerFailEventsComplete : Prop :=
  ∀ (t : Nat) (s : State),
    let p := s.power
    ((p.mode = .run ∨ p.mode = .update ∨ p.mode = .coldWait) → p.resetFlush = false → p.fail = none →
      happens (.powerFailDetected t) t [.regs, .power, .pk, .mbx, .net, .flags, .log, .store, .therm, .fns, .links, .scene, .win, .lt, .sheds] s
        fun b u => u.power.vbat = false ∧ u.power.lossNew = true
          ∧ u.power.fail = some ⟨b.now, false, none, 0, (List.range 16).filter fun g => (getLane b g).st ≠ .stopped⟩
          ∧ (∀ k ∈ present b, (getShed u k).drive.off = true) ∧ (∀ g < 16, (getLane u g).st = .stopped)
          ∧ u.scene.round = none ∧ u.lt.capture = none ∧ u.store.install = none
          ∧ (b.power.mode ≠ .update → yf u R.rstCause 31 24 = min 255 u.log.ring.length))
    ∧ (∀ f : PowerFail, (p.mode = .run ∨ p.mode = .update ∨ p.mode = .coldWait) → p.resetFlush = false → p.fail = some f → f.backAt.isSome = true →
      happens (.powerFailDetected t) t [.regs, .power] s fun b u =>
        powerAs u { b.power with vbat := false, lossNew := true, fail := some { f with backAt := none, flushed := false } }
        ∧ regsKept b u yardDie R.rstCause ∧ yf u R.rstCause 31 24 = min 255 b.log.ring.length)
    ∧ (∀ f : PowerFail, p.fail = some f → f.flushed = false → p.resetFlush = false →
      (yardHot s = false → happens (.powerFailFlushDone t) t [.regs, .power, .therm, .log, .store] s fun b u =>
        u.power.fail = some { f with flushed := true } ∧ u.log.ring = [] ∧ u.log.tackPend = [] ∧ yf u R.rstCause 31 24 = 0
        ∧ u.log.savedOpS = b.log.opS)
      ∧ (yardHot s = true → happens (.powerFailFlushDone t) t [.power] s fun b u =>
        powerAs u { b.power with heldBack := true, fail := some { f with flushed := true } }))
    ∧ (∀ f : PowerFail, p.fail = some f → f.flushed = false → p.resetFlush = true →
      (p.resetLow = true → leads (.powerFailFlushDone t) s fun u => yardCleared s u ∧ u.power.resetFlush = false ∧ u.power.fail = none)
      ∧ (p.resetLow = false → suppliesValid s = true → p.mode ≠ .nightWatch →
        leads (.powerFailFlushDone t) s fun u => u.power.phase = .released ∧ u.power.resetFlush = false ∧ u.power.fail = none))
    ∧ (∀ (f : PowerFail) (v : Nat), p.fail = some f → f.backAt = none → p.vio = true → p.vcore = true →
      happens (.vbatReturn t v) t [.power] s fun b u =>
        powerAs u { b.power with vbat := true, fail := some { f with backAt := some b.now, lowest := if f.lowest = 0 then v else min f.lowest v } })
    ∧ (∀ (f : PowerFail) (back : Nat), p.fail = some f → f.backAt = some back → f.flushed = true → p.resetFlush = false → back + ms ≤ s.now →
      happens (.dipResume t) t [.log, .pk, .power, .regs] s fun b u => powerAs u { b.power with fail := none, resumeAt := some b.now }
        ∧ regsKept b u yardDie R.rstCause ∧ yf u R.rstCause 0 0 = 1
        ∧ ∀ g ∈ f.lanes, laneDefined b g = true → (getLane b g).st = .stopped → (getLane u g).st = .running)

/-- Night Watch is entered by NW_ENTER and by the idle timeout, and PWR_EN goes low once the flush is done (02, R63, R64). -/
def Obligations.NightWatchEntryCompletes : Prop :=
  ∀ (t : Nat) (s : State),
    (∀ (n : Fin 16) (e : Entry), inTurn s n 0x0502 e → wellPut s n e 0 noRsvd 1 → s.power.mode ≠ .update → inCold s = false → flushRuns s = false →
      s.power.entry = none → noPinHeld s →
      leads (.nwEnter t n) s fun u => replied s u n e 0 0 [] ∧ changesOnly [.mbx, .net, .turn, .flags, .log, .power] t s u
        ∧ powerAs u { s.power with entry := some ⟨(atTime t s).now, false, false⟩ })
    ∧ (∀ since, s.power.idleSince = some since → yf s R.nwCfg 31 16 ≠ 0 → since + yf s R.nwCfg 31 16 * sec ≤ s.now → s.power.mode = .run →
      s.power.entry = none → flushRuns s = false → s.power.ready = true → noPinHeld s →
      happens (.nwIdleTimeout t) t [.mbx, .net, .flags, .log, .power] s fun b u => powerAs u { b.power with entry := some ⟨b.now, true, false⟩ })
    ∧ ∀ e : NwEntry, s.power.entry = some e → e.outputsOff = true → flushRuns s = false →
      leads (.nwFlushDone t) s fun u => yardCleared s u ∧ u.power.mode = .nightWatch ∧ u.power.pwrEn = false ∧ u.power.entry = none
        ∧ u.power.pwrEnAt = (atTime t s).now ∧ u.power.timerSince = (atTime t s).now ∧ reg u yardDie R.nwTimer = reg s yardDie R.nwTimer

/-- A wake pin, the link energy, the timer and a wake frame wake the device; a pin abandons an entry and raises the trigger bound to it; a
check that finds no frame returns to Night Watch (02, R64 to R68; 11, R337, R338). -/
def Obligations.WakeEventsComplete : Prop :=
  ∀ (t : Nat) (s : State),
    let bound := fun (p : Fin 4) (low : Bool) => s.power.fw = true ∧ (s.power.mode = .run ∨ inCold s = true) ∧ (wakeBinding s p).testBit 7 = true
      ∧ (wakeBinding s p).testBit 6 = low ∧ trigValid (trigEntry s (wakeBinding s p % 64)) = true ∧ safeOn s = false
    let act := fun (b : State) (p : Fin 4) => BitVec.ofNat 4 (setBit b.power.wakeActive.toNat p)
    (∀ p : Fin 4, s.power.wakeActive.toNat.testBit p = false →
      (wakeEnabled s p = true → asleep s → s.power.fw = false →
        happens (.wakePinEvent t p) t [.regs, .power] s fun b u => wakesBy b u (p.val + 1) { b.power with wakeActive := act b p })
      ∧ (wakeEnabled s p = true → s.power.entry.isSome = true →
        happens (.wakePinEvent t p) t [.regs, .pat, .links, .mbx, .net, .flags, .log, .power] s fun b u =>
          powerAs u { b.power with wakeActive := act b p, entry := none, resumeAt := some b.now })
      ∧ (wakeEnabled s p = false ∨ (s.power.entry = none ∧ s.power.mode ≠ .nightWatch) → bound p false →
        happens (.wakePinEvent t p) t [.regs, .pat, .links, .power] s fun b u => powerAs u { b.power with wakeActive := act b p }
          ∧ raisedAs b u (wakeBinding b p % 64)))
    ∧ (∀ p : Fin 4, s.power.wakeActive.toNat.testBit p = true → bound p true →
      happens (.wakePinInactive t p) t [.regs, .pat, .links, .power] s fun b u =>
        powerAs u { b.power with wakeActive := BitVec.ofNat 4 (clrBit b.power.wakeActive.toNat p) } ∧ raisedAs b u (wakeBinding b p % 64))
    ∧ (yf s R.nwCfg 7 7 = 1 → asleep s →
      (yf s R.nwCfg 6 6 = 1 → happens (.linkEnergyDetected t) t [.power] s fun b u =>
        powerAs u { b.power with wakePending := true, check := some ⟨b.now⟩ })
      ∧ (yf s R.nwCfg 6 6 = 0 → happens (.linkEnergyDetected t) t [.regs, .power] s fun b u => wakesBy b u 5 b.power))
    ∧ (yf s R.nwCfg 5 5 = 1 → yf s R.nwTimer 23 0 ≠ 0 → s.power.osc = true → s.power.timerSince + yf s R.nwTimer 23 0 * sec ≤ s.now → asleep s →
      happens (.wakeTimerExpiry t) t [.regs, .power] s fun b u => wakesBy b u 7 b.power)
    ∧ (∀ (c : WakeCheck) (payload : List Byte), s.power.check = some c → s.power.pwrEn = true → suppliesValid s = true →
      (atTime t s).now ≤ windowEnd s c → wakeMatch (wakePattern s) (le 4 (reg s yardDie R.nwWcode).toNat) payload = true →
      happens (.wakeFrame t payload) t [.power, .regs] s fun _ u => startsFrom u 6)
    ∧ (∀ c : WakeCheck, s.power.check = some c → s.power.pwrEn = true → suppliesValid s = true → windowEnd s c ≤ s.now →
      leads (.wakeFrameWindowExpiry t) s fun u => yardCleared s u ∧ u.power.mode = .nightWatch ∧ u.power.pwrEn = false ∧ u.power.check = none
        ∧ yf u R.nwTimer 31 24 = min (yf s R.nwTimer 31 24 + 1) 255)
    ∧ (s.power.wakePending = true → s.power.pwrEn = false → s.power.pwrEnAt + 5 * ms ≤ s.now →
      (s.power.check.isSome = true → happens (.pwrEnWakeRise t) t [.power] s fun b u =>
        powerAs u { b.power with wakePending := false, pwrEn := true, pwrEnAt := b.now, check := some ⟨b.now⟩ })
      ∧ (s.power.check = none → happens (.pwrEnWakeRise t) t [.power, .regs] s fun b u => u.power.mode = .startup ∧ u.power.pwrEn = true
        ∧ u.power.pwrEnAt = b.now ∧ u.power.wakePending = false ∧ yf u R.rstCause 4 4 = 1 ∧ yf u R.nwTimer 31 24 = 0
        ∧ (suppliesValid b = false → u.power.phase = b.power.phase)))

/-- The retry of the Stable load, the start of the firmware from the slot that verifies, the watchdog and the self-test of the crypto
engine (02, R56 to R58; 16, R440; 15, R418). -/
def Obligations.FirmwareStartsComplete : Prop :=
  ∀ (t : Nat) (s : State),
    let p := s.power
    (p.stable = false → p.fw = true → p.phase = .loading → s.scene.round = none → (∀ x, s.scene.loadTried = some x → x + sec ≤ s.now) →
      (∀ k ∈ present s, (getLink s k).trained = true) →
      ((selectStores s).2.1 = none → leads (.stableLoadRetry t) s fun u => (getDet u 0x1A).raised = true ∧ u.power.loadFailed = false
        ∧ u.scene.loadTried = some (atTime t s).now)
      ∧ ((selectStores s).2.1 ≠ none → leads (.stableLoadRetry t) s fun u => u.power.phase = .loading ∧ u.power.loadFailed = false
        ∧ u.scene.loadTried = some (atTime t s).now
        ∧ ∃ r, u.scene.round = some r ∧ r.boot = true ∧ r.id = seqNext s.scene.lastId ∧ r.sheds = present s))
    ∧ (powered s = true → p.fw = false → p.resetLow = false → p.check = none → (getDet s 0x1C).raised = false →
      (bootSlot (verifySlots s) = none → leads (.firmwareStart t) s fun u => (getDet u 0x1C).raised = true ∧ u.power.fw = false ∧ u.power.warm = false)
      ∧ ∀ i, bootSlot (verifySlots s) = some i → leads (.firmwareStart t) s fun u => u.power.fw = true ∧ u.power.ready = true
        ∧ u.power.warm = false ∧ u.store.active = i
        ∧ (p.warm = false → p.mode = .startup → u.power.mode = if yf s R.rstCause 8 8 = 1 then .coldWait else .run))
    ∧ (p.fw = true → leads (.watchdogExpiry t) s fun u => warmlyReset s u 3 ∧ (getDet u 0x04).raised = true)
    ∧ (happens (.cryptoSelfTestDone t true) t [.faults] s fun b u => u.faults.crypto = true
        ∧ getDet u 0x19 = { getDet b 0x19 with cause := false } ∧ elsewhere getDet b u 0x19)
    ∧ leads (.cryptoSelfTestDone t false) s fun u => (getDet u 0x19).raised = true ∧ u.faults.crypto = false
        ∧ ∀ n < 16, ∀ v, (getSess u n).nonce = some v → v.bytes = []

/-! Marks and the die links (01). -/

/-- The mark words, the yard's mark, a received mark, the shed's mark and the mark it fires itself; the lock of the grey clock; the
latency calibration; the training of a link at start-up and at a rejoin (01, R26 to R31; 02, R52, R79). -/
def Obligations.MarksComplete : Prop :=
  ∀ (t : Nat) (s : State),
    (∀ copy : Fin 2, s.marks.running = true → s.marks.sent = copy.val → nextMarkAt s ≤ s.now + (if copy = 0 then 4 * us else 2 * us) →
      happens (.markWordSend t copy) t [.marks, .links] s fun b u => u.marks = { b.marks with sent := copy.val + 1 }
        ∧ ∀ k, if k ∈ reached b then (getEnd u k true).ctl.head?.map (·.1) = some (.mark ((nextMarkAt b - b.now) / 5) (b.marks.count + 1))
          else getLink u k = getLink b k)
    ∧ (s.marks.running = true → nextMarkAt s ≤ s.now →
      happens (.yardFrameMark t) t [.sheds, .power, .lt, .therm, .fns, .sess, .flags, .log, .spim, .mbx, .net, .store, .win, .scene, .links, .marks,
          .pat, .regs] s fun b u =>
        u.marks.count = b.marks.count + 1 ∧ u.marks.at_ = nextMarkAt b ∧ u.marks.sent = 0 ∧ u.marks.running = true
        ∧ (b.marks.change = none → u.marks.perP = b.marks.perP ∧ u.marks.perN = b.marks.perN)
        ∧ ∀ m p n, b.marks.change = some (m, p, n) →
          (u.marks.perP, u.marks.perN) = if markAtOrAfter (b.marks.count + 1) m = true then (p, n) else (b.marks.perP, b.marks.perN))
    ∧ ∀ k : Fin 7, isPresent s k = true →
      let d := getShed s k
      (∀ (err : WordErr) (fire : BitVec 16) (count : Word), ctlComes (atTime t s) k false (.mark fire.toNat count) → err ≠ .uncorrectable →
        happens (.mark t k err fire count) t [.links, .sheds, .regs] s fun b u =>
          let at_ := b.now + 5 * fire.toNat - latency b k
          (getEnd u k false).lastRx = b.now ∧ elsewhere getShed b u k
          ∧ (d.markIn = none → getShed u k = { getShed b k with markIn := some ⟨at_, count⟩ })
          ∧ ∀ m, d.markIn = some m → getShed u k =
            if m.count = count ∧ m.fireAt < at_ + 5 ∧ at_ < m.fireAt + 5 then getShed b k
            else { getShed b k with mdisReport := (getShed b k).mdisReport + 1 })
      ∧ (∀ (fire : BitVec 16) (count : Word), happens (.mark t k .uncorrectable fire count) t [.links] s fun _ _ => True)
      ∧ (∀ (n : Nat) (m : MarkIn), d.markIn = some m → powered s = true → m.fireAt ≤ s.now →
        happens (.shedMarkFire t ⟨k, n⟩) t [.links, .sheds, .regs, .faults] s fun b u =>
          let d' := getShed u k
          d'.frame = m.count ∧ d'.markAt = b.now ∧ d'.markIn = none ∧ d'.drive.period = 0 ∧ d'.marksRx = d.marksRx + 1 ∧ d'.goodMarks = d.goodMarks + 1
          ∧ (8 ≤ d'.marksRx → regf u k R.linkSt 8 8 = 1) ∧ elsewhere getShed b u k)
      ∧ (powered s = true → d.markIn = none → d.markAt ≠ 0 → freeRunAt s k ≤ s.now →
        happens (.freeRunMark t k) t [.links, .sheds, .regs, .faults] s fun b u =>
          let d' := getShed u k
          d'.frame = d.frame + 1 ∧ d'.markAt = b.now ∧ d'.drive.period = 0 ∧ d'.goodMarks = 0 ∧ regf u k R.linkSt 11 11 = 1 ∧ elsewhere getShed b u k)
      ∧ (8 ≤ d.marksRx → happens (.greyClockLock t k) t [.regs] s fun b u => regf u k R.linkSt 8 8 = 1 ∧ regsKept b u k R.linkSt)
      ∧ (∀ lat : Byte, (getLink s k).trained = true → s.marks.running = true → s.marks.count.toNat % 1024 = 0 →
        happens (.linkLatencyCalibration t k lat) t [.links] s fun b u =>
          getLink u k = { getLink b k with latPend := some lat.toNat } ∧ elsewhere getLink b u k)
      ∧ (∀ (lat : Byte) (r : ShedReadings), (getLink s k).trained = false → powered s = true →
        (s.power.phase = .clocked → (∃ j ∈ present s, j ≠ k.val ∧ (getLink s j).trained = false) →
          happens (.linkTrained t k lat r) t [.links, .sheds, .regs] s fun b u => (getLink u k).trained = true ∧ (getShed u k).marksRx = 0
            ∧ regf u k R.linkSt 7 0 = lat.toNat ∧ elsewhere getShed b u k ∧ elsewhere getLink b u k)
        ∧ (s.power.phase = .clocked → (∀ j ∈ present s, j ≠ k.val → (getLink s j).trained = true) →
          leads (.linkTrained t k lat r) s fun u => (getLink u k).trained = true ∧ u.power.phase = .loading ∧ u.marks.running = true
            ∧ u.marks.boot = true ∧ u.marks.at_ = (atTime t s).now ∧ u.marks.sent = 0)
        ∧ (s.power.phase ≠ .clocked → s.power.stable = true →
          happens (.linkTrained t k lat r) t [.links, .sheds, .regs, .scene] s fun b u => (getLink u k).trained = true ∧ (getShed u k).resync = true
            ∧ (getShed u k).reloaded = false ∧ regf u k R.linkSt 7 0 = lat.toNat ∧ elsewhere getShed b u k))
      ∧ ∀ o, (getLink s k).trained = false → (getLink s k).outage = some o →
        (getLink s k).lastTry + (if (atTime t s).now < o + 100 * ms then ms else 100 * ms) ≤ (atTime t s).now →
        happens (.linkTrainAttempt t k) t [.links] s fun b u =>
          getLink u k = { getLink b k with lastTry := b.now } ∧ elsewhere getLink b u k

/-- Each packet for a shed, when it is the next in sequence and no error spoils it, is taken and acts as its type says; a packet with an
uncorrectable word does not act (01, R33, R35; 05, R157, R159 to R161; 06, R192; 07, R223; 08, R248). -/
def Obligations.ShedPacketsComplete : Prop :=
  ∀ (t : Nat) (s : State) (k : Fin 7) (q : Byte) (err : PacketErr),
    let d := getShed s k
    let arrives := packetComes s k false q.toNat
    let takes := fun (c : Instr) (l : List StatePart) (eff : State → State → Prop) =>
      happens c t (.links :: .regs :: l) s fun b u => packetTaken b u k false q.toNat ∧ eff b u
    let alone := fun (f : Shed → Shed) (b u : State) => getShed u k = f (getShed b k) ∧ elsewhere getShed b u k
    (err.bad = 0 →
      (∀ a ws, arrives (.write a ws) → takes (.write t k q err) [.sheds] fun b u => elsewhere getShed b u k
        ∧ (a + ws.length ≤ A.cfg → (getShed u k).front = d.front ∧ ∀ i < ws.length, iw (getShed u k).back (a + i) = ws.getD i 0)
        ∧ (A.cfg ≤ a → a + ws.length ≤ A.cal → ∀ i < ws.length, cw (getShed u k).cfgIn (a + i - A.cfg) = BitVec.ofNat 32 (ws.getD i 0).toNat)
        ∧ (A.cal ≤ a → a + ws.length ≤ A.cal + 2048 → ∀ i < ws.length, (getSite (getShed u k) (a + i - A.cal)).cal = ws.getD i 0))
      ∧ (∀ r, arrives (.writeEngines r) → takes (.write t k q err) [.sheds] (alone fun d => { d with restore := some r }))
      ∧ (∀ c, arrives (.writeCapture c) → takes (.write t k q err) [.sheds] fun b u => elsewhere getShed b u k
        ∧ ∃ y, (getShed u k).drive.capture = some y ∧ y.point = c.point ∧ y.acal = c.acal ∧ y.mark = c.mark ∧ y.periods = 0
          ∧ y.sites.map (·.site) = (List.range c.count).map (c.first + ·))
      ∧ (∀ a, arrives (.readReq a) → takes (.readReq t k q err) [] fun b u =>
        sentOn u k false (.readData a ((List.range 32).map fun i => readWord b k (a + i))))
      ∧ (∀ id bad, arrives (.prepare id) → d.resync = false → takes (.prepare t k q ⟨err, bad⟩) [.sheds] fun b u => elsewhere getShed b u k
        ∧ (d.badWords.any (fun x => !x.1) = false → bad = none → id ≠ d.lastRound →
          sentOn u k false (.prepareOk id) ∧ (getShed u k).prepared = some id)
        ∧ (bad.isSome = true ∨ id = d.lastRound → sentOn u k false (.prepareFail id) ∧ (getShed u k).prepared = d.prepared))
      ∧ (∀ id m, arrives (.command (.commit id m)) → d.prepared = some id → takes (.commit t k q err) [.sheds] fun b u =>
        if markAtOrAfter d.frame m = true then alone (fun d => { d with back := d.front, prepared := none, loads := [] }) b u
          ∧ sentOn u k false (.event (.fault 0x0B))
        else alone (fun d => { d with prepared := none, held := some (id, m) }) b u)
      ∧ (arrives (.command .abort) → takes (.abort t k q err) [.sheds]
        (alone fun d => { d with back := d.front, prepared := none, held := none, loads := [] }))
      ∧ (∀ c, arrives (.command (.patCtl c)) →
        (d.resync = true → takes (.patCtl t k q err) [.sheds] (alone fun d => { d with restoreCtls := d.restoreCtls ++ [c] }))
        ∧ (d.resync = false → (∀ p, d.past.getLast? = some p → markAtOrAfter p.frame c.mark = false) →
          takes (.patCtl t k q err) [.sheds] (alone fun d => { d with ctls := d.ctls ++ [c] }))
        ∧ ∀ p, d.resync = false → d.past.getLast? = some p → markAtOrAfter p.frame c.mark = true →
          takes (.patCtl t k q err) [.sheds] fun b u => sentOn u k false (.event (.patLate c.engine c.mark)) ∧ elsewhere getShed b u k
            ∧ (getEngine (getShed u k) c.engine).late = if c.act = .reset then 1 else min 7 ((getEngine d c.engine).late + 1))
      ∧ (∀ m l, arrives (.command (.derate m l)) → yardShadow s = false → takes (.derate t k q err) [.sheds]
        (alone fun d => { d with drive := { d.drive with deratePend := d.drive.deratePend ++ [(m, l)] } }))
      ∧ (∀ f, arrives (.command (.failOff f)) → takes (.failOff t k q err) [.sheds] (alone (fnDark f)))
      ∧ (∀ gs gr share, arrives (.command (.govern gs gr share)) → share < 65536 →
        (d.drive.placing = none → d.drive.next = none → takes (.govern t k q err) [.sheds] fun b u => regf u k R.govShedSt 31 16 = share
          ∧ alone (fun d => { d with drive := { d.drive with govern := true, gs := gs, gr := gr } }) b u)
        ∧ (d.drive.placing.isSome = true ∨ d.drive.next.isSome = true → yardShadow s = false → takes (.govern t k q err) [] fun _ u =>
          regf u k R.govShedSt 31 16 = share))
      ∧ (∀ v, arrives (.command (.round v)) → takes (.round t k q err) [.sheds] fun b u =>
        alone (fun d => { d with warm := { d.warm with busy := true, roundAt := b.now, vbat := v } }) b u)
      ∧ (arrives (.command .fallback) → takes (.fallback t k q err) [.sheds, .faults] fun b u =>
        (getShed u k).mode = .fallback ∧ (getShed u k).sentFallback = true ∧ elsewhere getShed b u k)
      ∧ ∀ chk bits x, arrives (.command (.inject chk bits x)) →
        (bits = 1 → takes (.inject t k q err) [.faults, .log] fun _ u => u.faults.injection = none)
        ∧ (bits ≠ 1 → takes (.inject t k q err) [.faults, .sheds] fun b u =>
          alone (fun d => { d with badWords := d.badWords ++ [(true, if chk = 2 then A.value + x / 4 else A.prog + 1024 * x)] }) b u
          ∧ u.faults = { b.faults with injection := b.faults.injection.map fun i => { i with left := 0 } }))
    ∧ (isPresent s k = true → err.bad ≠ 0 → ∀ c ∈ [Instr.write t k q err, .readReq t k q err, .readData t k q err, .prepare t k q ⟨err, none⟩,
        .prepareOk t k q err, .prepareFail t k q err, .frameStatus t k q err, .event t k q err, .commit t k q err, .abort t k q err, .patCtl t k q err,
        .derate t k q err, .failOff t k q err, .govern t k q err, .round t k q err, .fallback t k q err, .inject t k q err],
      happens c t [.links, .regs, .faults] s fun _ _ => True)

/-- The same for the packets that the yard receives: PREPARE_OK, PREPARE_FAIL, FRAME_STATUS, READ_DATA and each event (01, R35; 05, R157,
R158; 08, R245, R248). -/
def Obligations.YardPacketsComplete : Prop :=
  ∀ (t : Nat) (s : State) (k : Fin 7) (q : Byte) (err : PacketErr), err.bad = 0 →
    let arrives := packetComes s k true q.toNat
    let takes := fun (c : Instr) (l : List StatePart) (eff : State → State → Prop) =>
      happens c t (.links :: .regs :: l) s fun b u => packetTaken b u k true q.toNat ∧ eff b u
    let told := fun (e : ShedEvent) (l : List StatePart) (eff : State → State → Prop) =>
      arrives (.event e) → s.scene.round = none → s.power.loadFailed = false → takes (.event t k q err) (.log :: l) eff
    (∀ a ws, arrives (.readData a ws) → s.scene.round = none → takes (.readData t k q err) [.fns] fun b u =>
      (∀ i f, i < ws.length → a + i = A.fnState + f → f < 256 → dfld (ws.getD i 0) 7 0 ≠ 0 → (getFn b f).st = 0 →
        getFn u f = { getFn b f with st := 1 })
      ∧ ∀ f, (∀ i, i < ws.length → a + i = A.fnState + f → f < 256 → dfld (ws.getD i 0) 7 0 = 0) ∨ (getFn b f).st ≠ 0 → getFn u f = getFn b f)
    ∧ (∀ r : Round, s.scene.round = some r → r.prepared ≠ [] → r.redo = [] → k.val ∈ r.sheds →
      (arrives (.prepareOk r.id) → s.power.fw = true ∨ r.boot = true ∨ r.safe = true →
        let oks := if k.val ∈ r.ok then r.ok else r.ok ++ [k.val]
        ((∃ j ∈ r.sheds, j ∉ oks) → takes (.prepareOk t k q err) [.scene] fun b u =>
          u.scene = { b.scene with round := some { r with ok := oks }, heldSince := u.scene.heldSince })
        ∧ ((∀ j ∈ r.sheds, j ∈ oks) →
          takes (.prepareOk t k q err) [.marks, .mbx, .net, .pat, .log, .win, .scene] fun b u =>
            let m := applyMarkOf b r.commits
            u.scene.round = none ∧ u.scene.applied = r.after ∧ u.scene.applyMark = some m ∧ u.scene.applyAt = markTime b m
            ∧ reg u yardDie R.commitLogLo = BitVec.ofNat 32 r.id ∧ reg u yardDie R.commitLogHi = m
            ∧ (∀ j ∈ r.sheds, (getLink b j).trained = true → sentOn u j true (.command (.commit r.id m)))
            ∧ u.marks = if r.boot = true then { b.marks with mb := some m } else b.marks))
      ∧ (arrives (.prepareFail r.id) → s.power.loadFailed = false →
        (k.val ∉ r.second → takes (.prepareFail t k q err) [.scene] fun _ u =>
          ∃ r', u.scene.round = some r' ∧ r'.id = r.id ∧ r'.second = r.second ++ [k.val])
        ∧ (k.val ∈ r.second → r.boot = false → leads (.prepareFail t k q err) s fun u => u.scene.round = none
          ∧ ∀ j ∈ r.sheds, (getLink s j).trained = true → sentOn u j true (.command .abort))))
    ∧ (∀ f : FrameSt, arrives (.frameStatus f) → leads (.frameStatus t k q err) s fun u =>
      Table.get ([], [], 0) u.therm.tables k = (f.styling, f.regulated, f.fixed) ∧ Table.get [] u.therm.boards k = f.boards
        ∧ Table.get [] u.log.lits k = f.lit)
    ∧ (∀ i n old new off, told (.verdict i n old new off) [.diag, .mbx, .net, .flags, .fns] fun b u =>
      let f := saFn (siteAttr (applied b k) i)
      u.diag = { b.diag with due := b.diag.due ++ [(0, 2048 * k.val + i, n, new + 8 * bit01 off)] } ∧ elsewhere getFn b u f
      ∧ getFn u f = if failVerdict new = true ∧ saFnEn (siteAttr (applied b k) i) = true ∧ fnRegulated (applied b k) f = true ∧ (getFn b f).st = 0
          then { getFn b f with st := 1, failSite := some (2048 * k.val + i), failVerdict := new } else getFn b f)
    ∧ (∀ r old new, told (.switchVerdict r old new) [.diag] fun b u =>
      u.diag = { b.diag with due := b.diag.due ++ [(1, 16 * k.val + r, 1, new)] })
    ∧ (∀ n old new, told (.boosterVerdict n old new) [.diag] fun b u =>
      u.diag = { b.diag with due := b.diag.due ++ [(2, 8 * k.val + n, 1, new)] })
    ∧ (∀ i, told (.starved i) [] fun _ _ => True) ∧ (∀ g x r, told (.mode g x r) [] fun _ _ => True)
    ∧ (∀ r f, told (.rowScaled r f) [] fun _ _ => True) ∧ (∀ r l, told (.rowRegOver r l) [] fun _ _ => True)
    ∧ (∀ i a, told (.exclHeld i a) [] fun _ _ => True) ∧ (∀ i x, told (.lampHot i x) [] fun _ _ => True)
    ∧ (∀ e m, told (.patLate e m) [.faults] fun b u => shedShadow b k = false → u.faults = b.faults)
    ∧ (∀ m l, told (.checkpoints m l) [.pat] fun b u => Table.get 0 u.pat.checkAt k = m.toNat + 1
      ∧ u.pat.since = b.pat.since.filter fun p => !(p.1 / 16 == k.val && markAtOrAfter m p.2.mark))
    ∧ (∀ c y, s.lt.capture = some y → y.shed = k.val → y.named = true → y.mark = c.mark →
      told (.captured c) [.lt] fun b u => u.lt = { b.lt with arrived := some c })
    ∧ (∀ det, arrives (.event (.fault det)) → lasting det = false → shedShadow s k = false → det < 32 →
      leads (.event t k q err) s fun u => (getDet u det).raised = true)
    ∧ ∀ n opened, arrives (.event (.ntc n opened)) →
      ((getDet s (if opened then 0x12 else 0x13)).cause = true → (getDet s (if opened then 0x12 else 0x13)).raised = true) → leads (.event t k q err) s fun u => (getDet u (if opened then 0x12 else 0x13)).raised = true

/-- ACK, NAK, HEARTBEAT and IDLE words restart the heartbeat timer of the end that takes them; a NAK or a retry timeout sends again what
is outstanding; the fifth failure and an expired timer fail the link (01, R35 to R38). -/
def Obligations.LinkControlsComplete : Prop :=
  ∀ (t : Nat) (s : State) (k : Fin 7) (y : Bool), isPresent s k = true →
    let e := getEnd s k y
    let comes := ctlComes (atTime t s) k y
    let again := fun (b u : State) => ∀ o ∈ (getEnd u k y).out, b.now ≤ o.startAt
    (∀ (err : WordErr) (x : Byte), comes (.ack x.toNat) → err ≠ .uncorrectable →
      happens (.ack t k y err x) t [.links, .regs, .scene] s fun b u => (getEnd u k y).lastRx = b.now
        ∧ ∀ o ∈ (getEnd u k y).out, o.startAt < b.now → o.seq ≠ x.toNat ∧ seqPast o.seq x.toNat = false)
    ∧ (∀ (err : WordErr) (x : Byte), comes (.nak x.toNat) → err ≠ .uncorrectable → e.fired = false → (∀ o ∈ e.out, o.retries < 4) →
      s.power.loadFailed = false →
      happens (.nak t k y err x) t [.links, .regs, .scene] s fun b u => (getEnd u k y).lastRx = b.now ∧ again b u)
    ∧ (∀ err : WordErr, comes (heartbeatOn (atTime t s) k y) → err ≠ .uncorrectable →
      happens (.heartbeat t k y err) t [.links, .regs, .scene] s fun b u => (getEnd u k y).lastRx = b.now)
    ∧ (∀ err : WordErr, (getLink s k).trained = true → err ≠ .uncorrectable →
      happens (.idleWord t k y err) t [.links, .regs, .scene] s fun b u => (getEnd u k y).lastRx = b.now)
    ∧ (∀ x : Byte, ∀ c ∈ [Instr.ack t k y .uncorrectable x, .nak t k y .uncorrectable x, .heartbeat t k y .uncorrectable, .idleWord t k y .uncorrectable],
      happens c t [.links] s fun b u => (getEnd u k y).out = (getEnd b k y).out)
    ∧ ((getLink s k).trained = true → e.lastTx + 100 * us ≤ s.now → happens (.heartbeatSend t k y) t [.links] s fun b u =>
        let c := Ctl.heartbeat (if y then b.marks.count else (getShed b k).frame)
        c ∈ (getEnd u k y).ctlHeld ∨ c ∈ (getEnd u k y).ctl.map (·.1))
    ∧ ((getLink s k).trained = true ∨ (getLink s k).yard.fired = true ∨ (getLink s k).shed.fired = true → e.fired = false →
      e.lastRx + ms ≤ s.now → ((getLink s k).trained = true → retryPending (atTime t s) k y = false) → shedShadow s k = false →
      leads (.heartbeatTimeout t k y) s fun u => (getEnd u k y).fired = true ∧ (getLink u k).trained = false
        ∧ (y = true → (getDet u 0x09).raised = true)
        ∧ (y = false → ShedEvent.fault 0x09 ∈ (getShed u k).held_events ∧ (s.power.stable = true → (getShed u k).mode = .fallback)))
    ∧ ∀ o r, e.out = o :: r → (getLink s k).trained = true → e.fired = false → o.sentAt + 2 * us ≤ s.now →
      (o.retries < 4 → s.power.loadFailed = false → happens (.retryTimeout t k y) t [.links, .regs] s fun b u =>
        regf u k R.linkSt 23 16 = min (regf b k R.linkSt 23 16 + 1) 255 ∧ again b u
        ∧ (getEnd u k y).out.map (fun o => (o.seq, o.retries)) = (o.seq, o.retries + 1) :: r.map fun o => (o.seq, o.retries))
      ∧ (4 ≤ o.retries → shedShadow s k = false → leads (.retryTimeout t k y) s fun u =>
        regf u k R.linkSt 9 9 = 1 ∧ (getEnd u k y).fired = true ∧ (getLink u k).trained = false)

/-! The shed: output stage, placer, diagnostics and engines (03, 04, 06, 08). -/

/-- The end of a PWM period, TRIM dropout, the placer's start, end and deadline, the return to levelling, the cut-offs and trips, the
debounces, freshness and the probe debt (03, R92, R97, R106, R111; 04, R126, R130, R133, R134; 08, R230, R231, R235, R242). -/
def Obligations.OutputStageComplete : Prop :=
  ∀ (t : Nat) (s : State) (k : Fin 7), isPresent s k = true →
    let d := getShed s k
    let soon := fun (w : Nat) => d.markAt + shedInterval d ≤ (atTime t s).now + w
    (∀ obs : PeriodObs, happens (.pwmPeriodEnd t k obs) t [.sheds, .faults, .regs, .links] s fun b u =>
      (getShed u k).drive.period = d.drive.period + 1 ∧ (getShed u k).drive.periods = d.drive.periods + bit01 (!d.drive.off)
      ∧ (∀ c, (getChan (getShed u k) c).cuts = []) ∧ (∀ n, (getBooster (getShed u k) n).tripped = false) ∧ elsewhere getShed b u k
      ∧ ∀ g < 4, cf d.cfgDrv R.shedCfg (4 + g) (4 + g) = 1 → d.drive.off = true ∨ (∀ o ∈ obs.pulses, groupOf o.ch ≠ g) →
        regf u k (R.trimSt + g) 31 22 = regf b k (R.trimSt + g) 31 22 ∧ regf u k (R.trimSt + g) 5 5 = 1 ∧ regf u k (R.trimSt + g) 3 0 = 0)
    ∧ (∀ g : Fin 4, dropoutDue s k g = true → shedShadow s k = false → happens (.trimDropout t k g) t [.regs, .links, .sheds] s fun b u =>
      regf u k (R.trimSt + g) 4 4 = 1 ∧ regsKept b u k (R.trimSt + g) ∧ reported u k (.fault 0x14))
    ∧ (d.drive.placing = none → d.drive.next = none → soon ms → happens (.placementStart t k) t [.sheds, .regs, .faults] s fun b u =>
      let x := (getShed u k).drive
      (∃ p, x.placing = some p ∧ p.started = b.now ∧ p.finished = false ∧ p.late = false) ∧ x.govern = false ∧ x.late = !d.drive.govern
        ∧ elsewhere getShed b u k)
    ∧ (∀ p : Placing, d.drive.placing = some p → p.finished = false →
      (∀ (dur : Nat) (parityOk : Bool), happens (.placerDone t k dur parityOk) t [.sheds, .links, .regs] s fun b u =>
        (∃ p', (getShed u k).drive.placing = some p' ∧ p'.finished = true) ∧ regf u k R.placeSt 31 22 = min dur 1023 ∧ elsewhere getShed b u k
        ∧ (p.late = false → (getShed u k).drive.next.isSome = true)
        ∧ (parityOk = false → regf u k R.placeSt 13 6 = min (regf b k R.placeSt 13 6 + 1) 255 ∧ reported u k (.fault 0x0D)))
      ∧ (p.late = false → soon (100 * us) → happens (.placerDeadline t k) t [.sheds, .links, .regs] s fun b u =>
        (∃ p', (getShed u k).drive.placing = some p' ∧ p'.late = true) ∧ regf u k R.placeSt 21 14 = min (regf b k R.placeSt 21 14 + 1) 255
        ∧ (∃ x, (getShed u k).drive.next = some x ∧ x.spread = [true, true, true, true]) ∧ elsewhere getShed b u k))
    ∧ (∀ (g : Fin 4) (p : Placing), d.drive.placing = some p → p.toLevel.contains g.val = true →
      happens (.spreadToLevel t k g) t [.sheds, .links, .regs] s fun b u =>
        (getShed u k).drive = { d.drive with placing := some { p with toLevel := p.toLevel.filter (· ≠ g.val) } } ∧ elsewhere getShed b u k
        ∧ regf u k (R.dimSt + g) 21 14 = min (regf b k (R.dimSt + g) 21 14 + 1) 255 ∧ regsKept b u k (R.dimSt + g)
        ∧ reported u k (.mode g false 0))
    ∧ (∀ (ch : Fin 128) (row : Fin 16), d.drive.off = false → pulsesNow d (leadSite d (128 * row + ch)) = true →
      happens (.sinkOvervoltage t k ch row) t [.sheds] s fun b u => elsewhere getShed b u k ∧ ∃ n,
        getShed u k = setChan ch { getChan d ch with ov := (getChan d ch).ov + 1, cuts := (getChan d ch).cuts ++ [(row.val, n)] } d)
    ∧ (∀ r : Fin 16, (switchPlan d r).isSome = true → happens (.scanOvercurrentTrip t k r) t [.sheds] s fun b u =>
      getShed u k = setSwitch r { getSwitch d r with tripped := true } d ∧ elsewhere getShed b u k)
    ∧ (∀ n : Fin 8, d.drive.off = false → cf d.cfgDrv (R.xcCfg + n) 31 31 = 1 → happens (.boosterOvercurrent t k n) t [.sheds] s fun b u =>
      getShed u k = setBooster n { getBooster d n with tripped := true } d ∧ elsewhere getShed b u k)
    ∧ (∀ r : Fin 16, (getSwitch d r).due = true → happens (.debounceComplete t k (.switch r)) t [.links, .sheds, .regs] s fun b u =>
      let x := getSwitch d r
      getSwitch (getShed u k) r = { x with verdict := x.raw, due := false } ∧ reported u k (.switchVerdict r x.verdict x.raw)
        ∧ elsewhere getShed b u k)
    ∧ (∀ n : Fin 8, (getBooster d n).due = true → happens (.debounceComplete t k (.booster n)) t [.links, .sheds, .regs] s fun b u =>
      let x := getBooster d n
      getBooster (getShed u k) n = { x with verdict := x.raw, due := false } ∧ reported u k (.boosterVerdict n x.verdict x.raw)
        ∧ elsewhere getShed b u k)
    ∧ (∀ i : Fin 2048,
      let x := getSite d i
      (x.onDue = true → happens (.debounceComplete t k (.site i false)) t [.links, .sheds, .regs] s fun b u =>
        let y := getSite (getShed u k) i
        y.clsOn = x.rawOn ∧ y.onDue = false ∧ y.onLive = true ∧ y.onAt = x.rawOnAt ∧ y.clsOff = x.clsOff ∧ elsewhere getShed b u k)
      ∧ (x.offDue = true → happens (.debounceComplete t k (.site i true)) t [.links, .sheds, .regs] s fun b u =>
        let y := getSite (getShed u k) i
        y.clsOff = x.rawOff ∧ y.offDue = false ∧ y.offLive = true ∧ y.offAt = x.rawOffAt ∧ y.clsOn = x.clsOn ∧ elsewhere getShed b u k)
      ∧ (staleOn d i = true → happens (.freshnessExpiry t k i false) t [.links, .sheds, .regs] s fun b u =>
        (getSite (getShed u k) i).onLive = false ∧ (getSite (getShed u k) i).clsOn = x.clsOn ∧ elsewhere getShed b u k)
      ∧ (staleOff d i = true → happens (.freshnessExpiry t k i true) t [.links, .sheds, .regs] s fun b u =>
        (getSite (getShed u k) i).offLive = false ∧ (getSite (getShed u k) i).clsOff = x.clsOff ∧ elsewhere getShed b u k)
      ∧ (x.debt ≠ 0 → markAtOrAfter x.debtTo d.frame = false → happens (.probeDebtDrop t k i) t [.sheds, .regs] s fun b u =>
        getShed u k = setSite i { x with debt := 0 } d ∧ elsewhere getShed b u k
        ∧ regf u k R.diagSt 17 12 = min (regf b k R.diagSt 17 12 + 1) 63 ∧ regsKept b u k R.diagSt))

/-- A keyframe's end by its FLOW, the end of a PHASE delay and of a fade, and the checkpoints every sixteen frames (06, R174, R181, R182,
R185, R193). -/
def Obligations.EngineEventsComplete : Prop :=
  ∀ (t : Nat) (s : State) (k : Fin 7), isPresent s k = true →
    let d := getShed s k
    (∀ e : Fin 16,
      let g := getEngine d e
      let w := keyframe d.front e g.key
      let becomes := fun (c : Instr) (ok : Engine → Prop) => happens c t [.sheds] s fun b u => elsewhere getShed b u k
        ∧ ok (getEngine (getShed u k) e) ∧ getShed u k = setEngine e (getEngine (getShed u k) e) d
      let ends := fun (g' : Engine) => g' = if pgEnd d.front e = 0 then { g with st := .done, ended := false }
        else { g with st := .idle, ended := false, level := 0 }
      let goes := fun (q : Nat) (p : Table Nat) (g' : Engine) => g' = { g with
        key := q, d := 0, j := 0, ended := false, passes := p, level := if kfCurve w = 3 then g.l0 else kfLevel w }
      (keyDue g = true → becomes (.keyframeEnd t k e) fun g' =>
        (kfFlow w = 0 → g.key + 1 < pgKeys d.front e → goes (g.key + 1) g.passes g')
        ∧ (kfFlow w = 0 → pgKeys d.front e ≤ g.key + 1 → ends g')
        ∧ (kfFlow w = 1 → passLeft w g ≠ 0 → goes (kfLoop w) (Table.put 0 g.passes g.key (passLeft w g)) g')
        ∧ (kfFlow w = 1 → passLeft w g = 0 → g.key + 1 < pgKeys d.front e → goes (g.key + 1) (Table.put 0 g.passes g.key (kfCount w + 1)) g')
        ∧ (kfFlow w = 2 → goes (kfLoop w) g.passes g') ∧ (3 ≤ kfFlow w → ends g'))
      ∧ (phaseDue g = true → becomes (.phaseDelayEnd t k e) fun g' => g'.st = .running ∧ g'.inDelay = false ∧ g'.key = g.key
        ∧ (g.d = 0 → g'.d = durFrames w (shedInterval d) ∧ g'.j = 0 ∧ g'.l0 = g.level) ∧ (g.d ≠ 0 → g'.d = g.d ∧ g'.j = g.j + 1 ∧ g'.l0 = g.l0))
      ∧ (fadeDue g = true → becomes (.fadeEnd t k e) fun g' => g' = { g with st := .idle, ended := false, level := 0 }))
    ∧ (d.frame.toNat % 16 = 0 → (getLink s k).trained = true → d.mode = .joined → d.resync = false → s.power.fail = none →
      happens (.engineCheckpoint t k) t [.links] s fun b u => elsewhere getLink b u k ∧ (getEnd u k true) = (getEnd b k true)
        ∧ sentOn u k false (.event (.checkpoints d.frame ((d.engines.filter fun p => p.2.st ≠ .idle).map fun p => checkpointOf p.1 d.frame p.2))))

/-! Rounds, thermal protection, pages and commit rounds (05, 07 to 09, 17). -/

/-- The conversions of a shed and of the yard, the start of a housekeeping round, the evaluation of a retest and the end of a capture (07,
R214; 08, R254; 09, R258, R259). -/
def Obligations.RoundEventsComplete : Prop :=
  ∀ (t : Nat) (s : State),
    (∀ (k : Fin 7) (r : ShedReadings), isPresent s k = true → (getShed s k).warm.busy = true →
      happens (.shedRoundComplete t k r) t [.sheds, .links, .regs, .faults] s fun b u =>
        let w := (getShed u k).warm
        w.busy = false ∧ w.readings = some r ∧ elsewhere getShed b u k
        ∧ (r.refOk = true → w.vls = r.vls ∧ w.vscan = r.vscan)
        ∧ (r.refOk = false → w.vls = (getShed b k).warm.vls ∧ w.vscan = (getShed b k).warm.vscan ∧ reported u k (.fault 0x10))
        ∧ (r.logicLow = true → reported u k (.fault 0x0F)))
    ∧ (∀ r : YardReadings, powered s = true → leads (.yardRoundConversionsComplete t r) s fun u =>
        (r.refOk = true → u.therm.yardCore = r.core ∧ u.therm.yardMem = r.memory ∧ u.therm.yardNet = r.network
          ∧ u.therm.supplies = [r.vbat, r.vio, r.vcore, r.nwSupply])
        ∧ (r.refOk = false → u.therm.yardCore = s.therm.yardCore ∧ u.therm.yardMem = s.therm.yardMem ∧ u.therm.yardNet = s.therm.yardNet
          ∧ u.therm.supplies = s.therm.supplies ∧ ((getDet s 0x10).cause = false → (getDet u 0x10).raised = true)))
    ∧ (powered s = true → s.therm.roundAt + s.therm.roundLen ≤ s.now →
      leads (.housekeepingRound t) s fun u => u.therm.roundAt = (atTime t s).now ∧ u.therm.roundDue = true ∧ u.therm.reported = []
        ∧ u.therm.badNow = 0
        ∧ ∀ k ∈ present s, (getLink s k).trained = true → sentOn u k true (.command (.round (s.therm.supplies.getD 0 0))))
    ∧ (∀ r : Retest, s.therm.retest = some r → s.power.fw = true → writesHeld s = false → r.back = none → (getFn s r.fn).st = 2 →
      (∀ k ∈ present s, sitesOf (applied s k) r.fn ≠ [] → retestOver s r k = true) →
      let bad := fun (k i : Nat) => sitesOf (applied s k) r.fn ≠ [] ∧ i ∈ drivenSites s k r.fn ∧ retestBad (getShed s k) i = true
      ((∀ k ∈ present s, ∀ i, ¬ bad k i) → happens (.retestEvaluation t) t [.therm, .links, .log, .mbx, .net] s fun b u =>
        (∃ m : Nat, u.therm = { b.therm with retest := some { r with back := some m } })
          ∧ answeredOk b u r.sess r.entry (clearReply r.fn 0xFFFF r.mark.toNat))
      ∧ ((∃ k ∈ present s, ∃ i, bad k i) → happens (.retestEvaluation t) t [.therm, .fns, .links, .log, .mbx, .net] s fun b u =>
        u.therm = { b.therm with retest := none } ∧ elsewhere getFn b u r.fn
          ∧ ∃ k ∈ present b, ∃ i, bad k i ∧ getFn u r.fn =
            { getFn b r.fn with st := 1, failSite := some (2048 * k + i), failVerdict := (getSite (getShed b k) i).verdict }))
    ∧ ∀ y c : Capture, s.lt.capture = some y → s.lt.arrived = some c →
      happens (.ltCalCaptureEnd t) t [.lt, .mbx, .net] s fun b u => u.lt = { b.lt with
          capture := none, arrived := none, held := true, points := u.lt.points }

/-- The writes that waited for the window, the rewriting of the armed record, an over-temperature trip, the hot write that waited and the
verification of the hot record (09, R268, R270, R271, R273; 14, R393). -/
def Obligations.DeferredWritesAndTripsComplete : Prop :=
  ∀ (t : Nat) (s : State),
    (writesWait s = false → s.power.fw = true → happens (.nvDeferredWrite t) t [.faults, .log, .store, .mbx, .net, .therm] s fun b u =>
      u.store.tackDue = false ∧ u.store.flushDue = false ∧ u.store.saveDue = false ∧ u.faults = { b.faults with mramWait := 0 }
      ∧ (b.store.tackDue = true → u.log.tackPend = []) ∧ (b.store.flushDue = true → u.log.ring = [])
      ∧ (b.store.saveDue = true → u.log.savedOpS = b.log.opS))
    ∧ (writesWait s = false → s.power.fw = true → s.therm.warned = true → warnT s ≤ (tjMax s).1 → s.therm.armedAt + sec ≤ s.now →
      happens (.armedRecordRewrite t) t [.regs, .therm, .log] s fun b u =>
        u.therm = { b.therm with armed := some (tackSlot b.log.tackNext), armedAt := b.now } ∧ yf u R.thermSt 8 8 = 1
        ∧ regsKept b u yardDie R.thermSt)
    ∧ (∀ die : Fin 8, powered s = true → s.power.tripped.toNat.testBit die = false → die = 0 ∨ isPresent s (die.val - 1) = true →
      leads (.overtempTrip t die) s fun u => u.power.tripped = BitVec.ofNat 8 (setBit s.power.tripped.toNat die) ∧ u.power.hotTrip = true
        ∧ u.power.lineOff = true ∧ u.power.mode = .coldWait ∧ (s.power.mode ≠ .coldWait → yf u R.rstCause 8 8 = 1)
        ∧ (getDet u 0x16).raised = true ∧ ∀ k ∈ present s, (getShed u k).drive.off = true)
    ∧ (yardHot s = false →
      (s.power.heldBack = true → s.power.fail = none → s.power.fw = true →
        happens (.deferredHotWrite t) t [.regs, .therm, .log, .store, .power] s fun b u =>
          powerAs u { b.power with heldBack := false } ∧ u.log.ring = [] ∧ u.therm.hotDue = true)
      ∧ (s.therm.hotDeferred = true → s.power.heldBack = false → (∃ p ∈ s.log.tackPend, p.1.ev.code = 0x0503) →
        happens (.deferredHotWrite t) t [.regs, .therm, .log, .store] s fun b u =>
          u.therm = { b.therm with hotDeferred := false, armed := none, hotDue := true }))
    ∧ (s.therm.hotDue = true → s.power.mode ≠ .coldWait → s.power.fw = true →
      (∀ c ∈ [s.therm.yardCore, s.therm.yardMem, s.therm.yardNet], c < 125 * 16) →
      (∀ readOk rewriteOk : Bool, readOk = true ∨ rewriteOk = true → happens (.hotRecordVerify t readOk rewriteOk) t [.therm, .faults] s fun b u =>
        u.therm = { b.therm with hotDue := false } ∧ getDet u 0x1E = { getDet b 0x1E with cause := false } ∧ elsewhere getDet b u 0x1E)
      ∧ leads (.hotRecordVerify t false false) s fun u => (getDet u 0x1E).raised = true)

/-- The verdict map, the function state table and the device status page; the start of a round, ordinary, SAFE or restoring; and the round
whose PREPARE_OK does not come (05, R155, R163; 08, R243, R244; 15, R412; 17, R458, R459). -/
def Obligations.PublicationsAndCommitRoundsComplete : Prop :=
  ∀ (t : Nat) (s : State),
    let c := s.scene
    (s.power.fw = true → s.diag.due ≠ [] → s.diag.last ≠ some s.marks.count →
      happens (.verdictMapPublish t) t [.mbx, .net, .flags, .win, .diag] s fun b u =>
        u.diag = { due := [], changes := (b.diag.changes + b.diag.due.length) % 2 ^ 32, last := some b.marks.count } ∧ u.win.own = b.win.own
        ∧ ∀ n m v, b.diag.due = [(0, n, m, v)] → n + m ≤ 14336 → ∀ j < m, mapEntry u (n + j) = v % 16)
    ∧ (s.power.fw = true → happens (.functionStateTableUpdate t) t [.win] s fun b u => u.win = { b.win with
        updates := u.win.updates, bad := u.win.bad
        mem := Table.putAll 0 b.win.mem (5 * 4096)
          (le 4 (evenGen b 5 + 2) ++ (le 4 b.marks.count.toNat ++ zeros 8 ++ (List.range 256).flatMap (fnEntry b))) })
    ∧ (s.power.fw = true → happens (.deviceStatusPageUpdate t) t [.win] s fun b u => u.win = { b.win with
        updates := u.win.updates, bad := u.win.bad, mem := Table.putAll 0 b.win.mem 0 (le 4 (evenGen b 0 + 2) ++ statusPage b) })
    ∧ (roundFree (atTime t s) = true → shedsReady (atTime t s) = true → (∃ k ∈ present s, shedServing s k = true) →
      let begins := fun (ok : Round → Prop) => happens (.commitRoundStart t) t [.links, .scene] s fun _ u =>
        u.scene.lastId = seqNext c.lastId ∧ u.scene.applied = c.applied
          ∧ ∃ r, u.scene.round = some r ∧ r.id = seqNext c.lastId ∧ r.sheds = (present s).filter (shedServing s) ∧ r.boot = false ∧ ok r
      (c.safeWanted = false → safeOn s = false → s.power.fw = true → c.restoreDue = false →
        c.waiting ≠ [] ∨ c.heldLapses ≠ [] ∨ c.heldValues ≠ [] → begins fun r =>
          r.commits = c.waiting ∧ r.lapses = c.heldLapses ∧ r.values = c.heldValues.map (fun p => (p.1, p.2 - 1)) ∧ r.safe = false ∧ r.restore = false)
      ∧ (c.safeWanted = true → (pickCopy s N.stable (imageFits s)).isSome = true → begins fun r => r.safe = true ∧ r.commits = [] ∧ r.lapses = [])
      ∧ (∀ x, c.safeWanted = false → safeOn s = false → s.power.fw = true → c.restoreDue = true → c.replaced = some x → begins fun r =>
        r.restore = true ∧ r.after = x ∧ r.commits = [] ∧ r.lapses = []))
    ∧ (roundFree (atTime t s) = true → shedsReady (atTime t s) = true → c.safeWanted = true → pickCopy s N.stable (imageFits s) = none →
      leads (.commitRoundStart t) s fun u => u.scene.round = none ∧ u.scene.safeWanted = false
        ∧ ∀ k ∈ present s, (getLink s k).trained = true → sentOn u k true (.command .fallback))
    ∧ ∀ r : Round, c.round = some r → r.prepared ≠ [] → r.redo = [] → r.preparedAt + 500 * us ≤ (atTime t s).now →
      let left := r.sheds.filter fun k => !r.ok.contains k
      (∀ k ∈ left, retryPending (atTime t s) k true = false) →
      (r.boot = false → leads (.commitTimeout t) s fun u => u.scene.round = none
        ∧ ∀ k ∈ r.sheds, (getLink s k).trained = true → sentOn u k true (.command .abort))
      ∧ (r.boot = true → (∀ k ∈ left, k ∉ r.second) → happens (.commitTimeout t) t [.scene, .links] s fun _ u =>
        ∃ r', u.scene.round = some r' ∧ r'.id = r.id ∧ r'.sheds = r.sheds ∧ r'.second = r.second ++ left)

/-- A detector outside its shadow is raised for its die; a shadow ends; an injection times out; a scrubber's pass and the read of the test
word of SRAM (15, R416, R420, R424, R425, R431). -/
def Obligations.FaultEventsComplete : Prop :=
  ∀ (t : Nat) (s : State),
    (∀ (det : Fin 32) (die : Fin 8), die = 0 ∨ isPresent s (die.val - 1) = true → s.power.phase ≠ .held → detectsIn det die = true →
      die = 0 ∨ shedShadow s (die.val - 1) = false →
      leads (.faultRaise t det die) s fun u => (getDet u det).raised = true ∧ (getDet u det).dies.toNat.testBit die = true)
    ∧ (∀ (blk : ShadowBlock) (x : Shadow) (at_ : Nat), (∀ k, blk = .shed k → isPresent s k = true) → shadowOf s blk = some x →
      x.resumed = some at_ → at_ + 5 * ms ≤ s.now →
      happens (.resetShadowEnd t blk) t [.log, .faults] s fun b u =>
        u.faults = { b.faults with shadows := b.faults.shadows.filter fun y => y.block ≠ blk })
    ∧ (∀ i, s.faults.injection = some i → i.left ≠ 0 → i.at_ + sec ≤ s.now → happens (.injectionTimeout t) t [.log, .faults] s fun b u =>
        u.faults = { b.faults with injection := none })
    ∧ (∀ (m : ScrubMem) (n : Nat), (∀ k, m = .shed k → isPresent s k = true) →
      (n ≤ yf s R.faultCfg 15 8 → happens (.scrubPass t m n none) t [.faults, .log, .regs] s fun b u =>
        let hi := match m with | .sram => 31 | .mram => 23 | .shed _ => 15
        yf u R.eccSt hi (hi - 7) = min (yf b R.eccSt hi (hi - 7) + n) 255 ∧ regsKept b u yardDie R.eccSt ∧ (getDet u 0x02).cause = false
        ∧ (m = .sram → u.faults.sramBad = false) ∧ (m = .mram → u.faults.mramBad = false))
      ∧ (yf s R.faultCfg 15 8 < n → leads (.scrubPass t m n none) s fun u => (getDet u 0x02).raised = true))
    ∧ (∀ (n w : Nat), leads (.scrubPass t .sram n (some w)) s fun u => (getDet u 0x00).raised = true)
    ∧ (∀ k : Fin 7, isPresent s k = true → ∀ n w, n ≤ yf s R.faultCfg 15 8 →
      happens (.scrubPass t (.shed k) n (some w)) t [.faults, .log, .regs, .links, .sheds] s fun b u => reported u k (.fault 0x0C) ∧ elsewhere getShed b u k)
    ∧ ∀ i, s.faults.injection = some i → i.checker = 0 → s.power.fw = true →
      (i.bits = 1 → happens (.sramTestWordRead t) t [.faults, .log, .regs] s fun b u => u.faults.injection = none ∧ regsKept b u yardDie R.eccSt)
      ∧ (i.bits ≠ 1 → leads (.sramTestWordRead t) s fun u => (getDet u 0x00).raised = true)
end

