-- ==== Sys2Proof/Laws/Table.lean ====
section
/-! SUPPORT. Laws of the sparse tables: what a lookup finds after an update, and that every update keeps the canonical form. -/

namespace Sys2Proof

variable {α : Type}

theorem Table.find?_drop_self (t : Table α) (k : Nat) : Table.find? (Table.drop t k) k = none := by
  induction t with
  | nil => rfl
  | cons p r ih =>
    obtain ⟨k', v⟩ := p
    by_cases h : k' = k
    · subst h; simpa [Table.drop] using ih
    · simpa [Table.drop, Table.find?, h] using ih

theorem Table.find?_drop_other (t : Table α) {j k : Nat} (h : j ≠ k) : Table.find? (Table.drop t k) j = Table.find? t j := by
  induction t with
  | nil => rfl
  | cons p r ih =>
    obtain ⟨k', v⟩ := p
    by_cases h1 : k' = k
    · subst h1
      have : Table.find? ((k', v) :: r) j = Table.find? r j := by simp [Table.find?, Ne.symm h]
      simpa [Table.drop, this] using ih
    · by_cases h2 : k' = j
      · subst h2; simp [Table.drop, Table.find?, h1]
      · simpa [Table.drop, Table.find?, h1, h2] using ih

theorem Table.find?_ins_self (t : Table α) (k : Nat) (v : α) (h : Table.find? t k = none) : Table.find? (Table.ins t k v) k = some v := by
  induction t with
  | nil => simp [Table.ins, Table.find?]
  | cons p r ih =>
    obtain ⟨k', v'⟩ := p
    by_cases h1 : k < k'
    · simp [Table.ins, Table.find?, h1]
    · have hne : k' ≠ k := by
        intro e; subst e; simp [Table.find?] at h
      have : Table.find? r k = none := by simpa [Table.find?, hne] using h
      simpa [Table.ins, h1, Table.find?, hne] using ih this

theorem Table.find?_ins_other (t : Table α) {j k : Nat} (v : α) (h : j ≠ k) : Table.find? (Table.ins t k v) j = Table.find? t j := by
  induction t with
  | nil => simp [Table.ins, Table.find?, Ne.symm h]
  | cons p r ih =>
    obtain ⟨k', v'⟩ := p
    by_cases h1 : k < k'
    · simp [Table.ins, Table.find?, h1, Ne.symm h]
    · by_cases h2 : k' = j
      · rw [Table.ins, if_neg h1]; simp [Table.find?, h2]
      · simpa [Table.ins, h1, Table.find?, h2] using ih

/-- What was written is read. -/
@[simp] theorem Table.get_put_self [DecidableEq α] (d : α) (t : Table α) (k : Nat) (v : α) : Table.get d (Table.put d t k v) k = v := by
  unfold Table.get Table.put
  split
  · rename_i h; simp [Table.find?_drop_self, h]
  · simp [Table.find?_ins_self _ _ _ (Table.find?_drop_self t k)]

/-- Every other key reads as before. -/
theorem Table.get_put_other [DecidableEq α] (d : α) (t : Table α) {j k : Nat} (v : α) (h : j ≠ k) :
    Table.get d (Table.put d t k v) j = Table.get d t j := by
  unfold Table.get Table.put
  split
  · rw [Table.find?_drop_other t h]
  · rw [Table.find?_ins_other _ _ h, Table.find?_drop_other t h]

theorem Table.get_put [DecidableEq α] (d : α) (t : Table α) (j k : Nat) (v : α) :
    Table.get d (Table.put d t k v) j = if j = k then v else Table.get d t j := by
  by_cases h : j = k
  · subst h; simp
  · simp [h, Table.get_put_other d t v h]

@[simp] theorem Table.get_nil (d : α) (k : Nat) : Table.get d [] k = d := rfl

theorem Table.all_drop {t : Table α} {k : Nat} {p : Nat × α → Bool} (h : t.all p = true) : (Table.drop t k).all p = true := by
  rw [List.all_eq_true] at h ⊢
  intro x hx
  exact h x (List.mem_filter.mp hx).1

theorem Table.wf_drop [DecidableEq α] (d : α) (t : Table α) (k : Nat) (h : Table.wf d t = true) : Table.wf d (Table.drop t k) = true := by
  induction t with
  | nil => rfl
  | cons p r ih =>
    obtain ⟨k', v⟩ := p
    simp only [Table.wf, Bool.and_eq_true] at h
    obtain ⟨⟨h1, h2⟩, h3⟩ := h
    by_cases hk : k' = k
    · subst hk; simpa [Table.drop] using ih h3
    · have : Table.drop ((k', v) :: r) k = (k', v) :: Table.drop r k := by simp [Table.drop, hk]
      rw [this]
      simp only [Table.wf, Bool.and_eq_true]
      exact ⟨⟨h1, Table.all_drop h2⟩, ih h3⟩

theorem Table.all_ins {t : Table α} {k : Nat} {v : α} {p : Nat × α → Bool} (h : t.all p = true) (hk : p (k, v) = true) :
    (Table.ins t k v).all p = true := by
  induction t with
  | nil => simp [Table.ins, hk]
  | cons q r ih =>
    obtain ⟨k', v'⟩ := q
    simp only [List.all_cons, Bool.and_eq_true] at h
    by_cases h1 : k < k'
    · simp [Table.ins, h1, hk, h.1, h.2]
    · simp [Table.ins, h1, h.1, ih h.2]

theorem Table.wf_ins [DecidableEq α] (d : α) (t : Table α) (k : Nat) (v : α) (h : Table.wf d t = true) (hv : v ≠ d)
    (hk : Table.find? t k = none) : Table.wf d (Table.ins t k v) = true := by
  induction t with
  | nil => simp [Table.ins, Table.wf, hv]
  | cons p r ih =>
    obtain ⟨k', v'⟩ := p
    simp only [Table.wf, Bool.and_eq_true] at h
    obtain ⟨⟨h1, h2⟩, h3⟩ := h
    have hne : k' ≠ k := by intro e; subst e; simp [Table.find?] at hk
    have hr : Table.find? r k = none := by simpa [Table.find?, hne] using hk
    by_cases hlt : k < k'
    · have hall : r.all (fun p => decide (k < p.1)) = true := by
        rw [List.all_eq_true] at h2 ⊢
        intro x hx
        have := h2 x hx
        simp only [decide_eq_true_eq] at this ⊢
        omega
      simp [Table.ins, hlt, Table.wf, hv, h1, h2, h3, hall]
    · have : (Table.ins r k v).all (fun p => decide (k' < p.1)) = true := Table.all_ins h2 (by simp; omega)
      simp only [Table.ins, hlt, if_false, Table.wf, Bool.and_eq_true]
      exact ⟨⟨h1, this⟩, ih h3 hr⟩

/-- An update keeps the canonical form. -/
theorem Table.wf_put [DecidableEq α] (d : α) (t : Table α) (k : Nat) (v : α) (h : Table.wf d t = true) :
    Table.wf d (Table.put d t k v) = true := by
  unfold Table.put
  split
  · exact Table.wf_drop d t k h
  · rename_i hv; exact Table.wf_ins d _ k v (Table.wf_drop d t k h) hv (Table.find?_drop_self t k)

/-- A write of a run of entries keeps the canonical form. -/
theorem Table.wf_putAll [DecidableEq α] (d : α) (vs : List α) (t : Table α) (k : Nat) (h : Table.wf d t = true) :
    Table.wf d (Table.putAll d t k vs) = true := by
  induction vs generalizing t k with
  | nil => exact h
  | cons v vs ih => exact ih _ _ (Table.wf_put d t k v h)

end Sys2Proof
end

