-- ==== Sys2Proof/Laws/State.lean ====
section
/-! SUPPORT. Field by field, what the updates of State leave: one lemma per field and update. -/

namespace Sys2Proof.Machine

open Sys2Proof

variable (s : State)

/-! `setReg`. -/

@[simp] theorem setReg_pending (die n : Nat) (w : Word) : (setReg die n w s).pending = s.pending := rfl
@[simp] theorem setReg_now (die n : Nat) (w : Word) : (setReg die n w s).now = s.now := rfl
@[simp] theorem setReg_free (die n : Nat) (w : Word) : (setReg die n w s).free = s.free := rfl
@[simp] theorem setReg_variant (die n : Nat) (w : Word) : (setReg die n w s).variant = s.variant := rfl
@[simp] theorem setReg_power (die n : Nat) (w : Word) : (setReg die n w s).power = s.power := rfl
@[simp] theorem setReg_marks (die n : Nat) (w : Word) : (setReg die n w s).marks = s.marks := rfl
@[simp] theorem setReg_links (die n : Nat) (w : Word) : (setReg die n w s).links = s.links := rfl
@[simp] theorem setReg_sheds (die n : Nat) (w : Word) : (setReg die n w s).sheds = s.sheds := rfl
@[simp] theorem setReg_sess (die n : Nat) (w : Word) : (setReg die n w s).sess = s.sess := rfl
@[simp] theorem setReg_mbx (die n : Nat) (w : Word) : (setReg die n w s).mbx = s.mbx := rfl
@[simp] theorem setReg_fns (die n : Nat) (w : Word) : (setReg die n w s).fns = s.fns := rfl
@[simp] theorem setReg_win (die n : Nat) (w : Word) : (setReg die n w s).win = s.win := rfl
@[simp] theorem setReg_front (die n : Nat) (w : Word) : (setReg die n w s).front = s.front := rfl
@[simp] theorem setReg_scene (die n : Nat) (w : Word) : (setReg die n w s).scene = s.scene := rfl
@[simp] theorem setReg_pat (die n : Nat) (w : Word) : (setReg die n w s).pat = s.pat := rfl
@[simp] theorem setReg_diag (die n : Nat) (w : Word) : (setReg die n w s).diag = s.diag := rfl
@[simp] theorem setReg_lt (die n : Nat) (w : Word) : (setReg die n w s).lt = s.lt := rfl
@[simp] theorem setReg_therm (die n : Nat) (w : Word) : (setReg die n w s).therm = s.therm := rfl
@[simp] theorem setReg_net (die n : Nat) (w : Word) : (setReg die n w s).net = s.net := rfl
@[simp] theorem setReg_can (die n : Nat) (w : Word) : (setReg die n w s).can = s.can := rfl
@[simp] theorem setReg_spim (die n : Nat) (w : Word) : (setReg die n w s).spim = s.spim := rfl
@[simp] theorem setReg_xip (die n : Nat) (w : Word) : (setReg die n w s).xip = s.xip := rfl
@[simp] theorem setReg_pk (die n : Nat) (w : Word) : (setReg die n w s).pk = s.pk := rfl
@[simp] theorem setReg_log (die n : Nat) (w : Word) : (setReg die n w s).log = s.log := rfl
@[simp] theorem setReg_faults (die n : Nat) (w : Word) : (setReg die n w s).faults = s.faults := rfl
@[simp] theorem setReg_store (die n : Nat) (w : Word) : (setReg die n w s).store = s.store := rfl
@[simp] theorem setReg_authFails (die n : Nat) (w : Word) : (setReg die n w s).authFails = s.authFails := rfl
@[simp] theorem setReg_nextEntry (die n : Nat) (w : Word) : (setReg die n w s).nextEntry = s.nextEntry := rfl
@[simp] theorem setReg_turn (die n : Nat) (w : Word) : (setReg die n w s).turn = s.turn := rfl

/-! `setRegf`. -/

@[simp] theorem setRegf_pending (die n hi lo v : Nat) : (setRegf die n hi lo v s).pending = s.pending := rfl
@[simp] theorem setRegf_now (die n hi lo v : Nat) : (setRegf die n hi lo v s).now = s.now := rfl
@[simp] theorem setRegf_free (die n hi lo v : Nat) : (setRegf die n hi lo v s).free = s.free := rfl
@[simp] theorem setRegf_variant (die n hi lo v : Nat) : (setRegf die n hi lo v s).variant = s.variant := rfl
@[simp] theorem setRegf_power (die n hi lo v : Nat) : (setRegf die n hi lo v s).power = s.power := rfl
@[simp] theorem setRegf_marks (die n hi lo v : Nat) : (setRegf die n hi lo v s).marks = s.marks := rfl
@[simp] theorem setRegf_links (die n hi lo v : Nat) : (setRegf die n hi lo v s).links = s.links := rfl
@[simp] theorem setRegf_sheds (die n hi lo v : Nat) : (setRegf die n hi lo v s).sheds = s.sheds := rfl
@[simp] theorem setRegf_sess (die n hi lo v : Nat) : (setRegf die n hi lo v s).sess = s.sess := rfl
@[simp] theorem setRegf_mbx (die n hi lo v : Nat) : (setRegf die n hi lo v s).mbx = s.mbx := rfl
@[simp] theorem setRegf_fns (die n hi lo v : Nat) : (setRegf die n hi lo v s).fns = s.fns := rfl
@[simp] theorem setRegf_win (die n hi lo v : Nat) : (setRegf die n hi lo v s).win = s.win := rfl
@[simp] theorem setRegf_front (die n hi lo v : Nat) : (setRegf die n hi lo v s).front = s.front := rfl
@[simp] theorem setRegf_scene (die n hi lo v : Nat) : (setRegf die n hi lo v s).scene = s.scene := rfl
@[simp] theorem setRegf_pat (die n hi lo v : Nat) : (setRegf die n hi lo v s).pat = s.pat := rfl
@[simp] theorem setRegf_diag (die n hi lo v : Nat) : (setRegf die n hi lo v s).diag = s.diag := rfl
@[simp] theorem setRegf_lt (die n hi lo v : Nat) : (setRegf die n hi lo v s).lt = s.lt := rfl
@[simp] theorem setRegf_therm (die n hi lo v : Nat) : (setRegf die n hi lo v s).therm = s.therm := rfl
@[simp] theorem setRegf_net (die n hi lo v : Nat) : (setRegf die n hi lo v s).net = s.net := rfl
@[simp] theorem setRegf_can (die n hi lo v : Nat) : (setRegf die n hi lo v s).can = s.can := rfl
@[simp] theorem setRegf_spim (die n hi lo v : Nat) : (setRegf die n hi lo v s).spim = s.spim := rfl
@[simp] theorem setRegf_xip (die n hi lo v : Nat) : (setRegf die n hi lo v s).xip = s.xip := rfl
@[simp] theorem setRegf_pk (die n hi lo v : Nat) : (setRegf die n hi lo v s).pk = s.pk := rfl
@[simp] theorem setRegf_log (die n hi lo v : Nat) : (setRegf die n hi lo v s).log = s.log := rfl
@[simp] theorem setRegf_faults (die n hi lo v : Nat) : (setRegf die n hi lo v s).faults = s.faults := rfl
@[simp] theorem setRegf_store (die n hi lo v : Nat) : (setRegf die n hi lo v s).store = s.store := rfl
@[simp] theorem setRegf_authFails (die n hi lo v : Nat) : (setRegf die n hi lo v s).authFails = s.authFails := rfl
@[simp] theorem setRegf_nextEntry (die n hi lo v : Nat) : (setRegf die n hi lo v s).nextEntry = s.nextEntry := rfl
@[simp] theorem setRegf_turn (die n hi lo v : Nat) : (setRegf die n hi lo v s).turn = s.turn := rfl

/-! `bumpReg`. -/

@[simp] theorem bumpReg_pending (die n hi lo : Nat) : (bumpReg die n hi lo s).pending = s.pending := rfl
@[simp] theorem bumpReg_now (die n hi lo : Nat) : (bumpReg die n hi lo s).now = s.now := rfl
@[simp] theorem bumpReg_free (die n hi lo : Nat) : (bumpReg die n hi lo s).free = s.free := rfl
@[simp] theorem bumpReg_variant (die n hi lo : Nat) : (bumpReg die n hi lo s).variant = s.variant := rfl
@[simp] theorem bumpReg_power (die n hi lo : Nat) : (bumpReg die n hi lo s).power = s.power := rfl
@[simp] theorem bumpReg_marks (die n hi lo : Nat) : (bumpReg die n hi lo s).marks = s.marks := rfl
@[simp] theorem bumpReg_links (die n hi lo : Nat) : (bumpReg die n hi lo s).links = s.links := rfl
@[simp] theorem bumpReg_sheds (die n hi lo : Nat) : (bumpReg die n hi lo s).sheds = s.sheds := rfl
@[simp] theorem bumpReg_sess (die n hi lo : Nat) : (bumpReg die n hi lo s).sess = s.sess := rfl
@[simp] theorem bumpReg_mbx (die n hi lo : Nat) : (bumpReg die n hi lo s).mbx = s.mbx := rfl
@[simp] theorem bumpReg_fns (die n hi lo : Nat) : (bumpReg die n hi lo s).fns = s.fns := rfl
@[simp] theorem bumpReg_win (die n hi lo : Nat) : (bumpReg die n hi lo s).win = s.win := rfl
@[simp] theorem bumpReg_front (die n hi lo : Nat) : (bumpReg die n hi lo s).front = s.front := rfl
@[simp] theorem bumpReg_scene (die n hi lo : Nat) : (bumpReg die n hi lo s).scene = s.scene := rfl
@[simp] theorem bumpReg_pat (die n hi lo : Nat) : (bumpReg die n hi lo s).pat = s.pat := rfl
@[simp] theorem bumpReg_diag (die n hi lo : Nat) : (bumpReg die n hi lo s).diag = s.diag := rfl
@[simp] theorem bumpReg_lt (die n hi lo : Nat) : (bumpReg die n hi lo s).lt = s.lt := rfl
@[simp] theorem bumpReg_therm (die n hi lo : Nat) : (bumpReg die n hi lo s).therm = s.therm := rfl
@[simp] theorem bumpReg_net (die n hi lo : Nat) : (bumpReg die n hi lo s).net = s.net := rfl
@[simp] theorem bumpReg_can (die n hi lo : Nat) : (bumpReg die n hi lo s).can = s.can := rfl
@[simp] theorem bumpReg_spim (die n hi lo : Nat) : (bumpReg die n hi lo s).spim = s.spim := rfl
@[simp] theorem bumpReg_xip (die n hi lo : Nat) : (bumpReg die n hi lo s).xip = s.xip := rfl
@[simp] theorem bumpReg_pk (die n hi lo : Nat) : (bumpReg die n hi lo s).pk = s.pk := rfl
@[simp] theorem bumpReg_log (die n hi lo : Nat) : (bumpReg die n hi lo s).log = s.log := rfl
@[simp] theorem bumpReg_faults (die n hi lo : Nat) : (bumpReg die n hi lo s).faults = s.faults := rfl
@[simp] theorem bumpReg_store (die n hi lo : Nat) : (bumpReg die n hi lo s).store = s.store := rfl
@[simp] theorem bumpReg_authFails (die n hi lo : Nat) : (bumpReg die n hi lo s).authFails = s.authFails := rfl
@[simp] theorem bumpReg_nextEntry (die n hi lo : Nat) : (bumpReg die n hi lo s).nextEntry = s.nextEntry := rfl
@[simp] theorem bumpReg_turn (die n hi lo : Nat) : (bumpReg die n hi lo s).turn = s.turn := rfl

/-! `addReg`. -/

@[simp] theorem addReg_pending (die n hi lo k : Nat) : (addReg die n hi lo k s).pending = s.pending := rfl
@[simp] theorem addReg_now (die n hi lo k : Nat) : (addReg die n hi lo k s).now = s.now := rfl
@[simp] theorem addReg_free (die n hi lo k : Nat) : (addReg die n hi lo k s).free = s.free := rfl
@[simp] theorem addReg_variant (die n hi lo k : Nat) : (addReg die n hi lo k s).variant = s.variant := rfl
@[simp] theorem addReg_power (die n hi lo k : Nat) : (addReg die n hi lo k s).power = s.power := rfl
@[simp] theorem addReg_marks (die n hi lo k : Nat) : (addReg die n hi lo k s).marks = s.marks := rfl
@[simp] theorem addReg_links (die n hi lo k : Nat) : (addReg die n hi lo k s).links = s.links := rfl
@[simp] theorem addReg_sheds (die n hi lo k : Nat) : (addReg die n hi lo k s).sheds = s.sheds := rfl
@[simp] theorem addReg_sess (die n hi lo k : Nat) : (addReg die n hi lo k s).sess = s.sess := rfl
@[simp] theorem addReg_mbx (die n hi lo k : Nat) : (addReg die n hi lo k s).mbx = s.mbx := rfl
@[simp] theorem addReg_fns (die n hi lo k : Nat) : (addReg die n hi lo k s).fns = s.fns := rfl
@[simp] theorem addReg_win (die n hi lo k : Nat) : (addReg die n hi lo k s).win = s.win := rfl
@[simp] theorem addReg_front (die n hi lo k : Nat) : (addReg die n hi lo k s).front = s.front := rfl
@[simp] theorem addReg_scene (die n hi lo k : Nat) : (addReg die n hi lo k s).scene = s.scene := rfl
@[simp] theorem addReg_pat (die n hi lo k : Nat) : (addReg die n hi lo k s).pat = s.pat := rfl
@[simp] theorem addReg_diag (die n hi lo k : Nat) : (addReg die n hi lo k s).diag = s.diag := rfl
@[simp] theorem addReg_lt (die n hi lo k : Nat) : (addReg die n hi lo k s).lt = s.lt := rfl
@[simp] theorem addReg_therm (die n hi lo k : Nat) : (addReg die n hi lo k s).therm = s.therm := rfl
@[simp] theorem addReg_net (die n hi lo k : Nat) : (addReg die n hi lo k s).net = s.net := rfl
@[simp] theorem addReg_can (die n hi lo k : Nat) : (addReg die n hi lo k s).can = s.can := rfl
@[simp] theorem addReg_spim (die n hi lo k : Nat) : (addReg die n hi lo k s).spim = s.spim := rfl
@[simp] theorem addReg_xip (die n hi lo k : Nat) : (addReg die n hi lo k s).xip = s.xip := rfl
@[simp] theorem addReg_pk (die n hi lo k : Nat) : (addReg die n hi lo k s).pk = s.pk := rfl
@[simp] theorem addReg_log (die n hi lo k : Nat) : (addReg die n hi lo k s).log = s.log := rfl
@[simp] theorem addReg_faults (die n hi lo k : Nat) : (addReg die n hi lo k s).faults = s.faults := rfl
@[simp] theorem addReg_store (die n hi lo k : Nat) : (addReg die n hi lo k s).store = s.store := rfl
@[simp] theorem addReg_authFails (die n hi lo k : Nat) : (addReg die n hi lo k s).authFails = s.authFails := rfl
@[simp] theorem addReg_nextEntry (die n hi lo k : Nat) : (addReg die n hi lo k s).nextEntry = s.nextEntry := rfl
@[simp] theorem addReg_turn (die n hi lo k : Nat) : (addReg die n hi lo k s).turn = s.turn := rfl

/-! `setShed`. -/

@[simp] theorem setShed_pending (k : Nat) (d : Shed) : (setShed k d s).pending = s.pending := rfl
@[simp] theorem setShed_now (k : Nat) (d : Shed) : (setShed k d s).now = s.now := rfl
@[simp] theorem setShed_free (k : Nat) (d : Shed) : (setShed k d s).free = s.free := rfl
@[simp] theorem setShed_variant (k : Nat) (d : Shed) : (setShed k d s).variant = s.variant := rfl
@[simp] theorem setShed_regs (k : Nat) (d : Shed) : (setShed k d s).regs = s.regs := rfl
@[simp] theorem setShed_power (k : Nat) (d : Shed) : (setShed k d s).power = s.power := rfl
@[simp] theorem setShed_marks (k : Nat) (d : Shed) : (setShed k d s).marks = s.marks := rfl
@[simp] theorem setShed_links (k : Nat) (d : Shed) : (setShed k d s).links = s.links := rfl
@[simp] theorem setShed_sess (k : Nat) (d : Shed) : (setShed k d s).sess = s.sess := rfl
@[simp] theorem setShed_mbx (k : Nat) (d : Shed) : (setShed k d s).mbx = s.mbx := rfl
@[simp] theorem setShed_fns (k : Nat) (d : Shed) : (setShed k d s).fns = s.fns := rfl
@[simp] theorem setShed_win (k : Nat) (d : Shed) : (setShed k d s).win = s.win := rfl
@[simp] theorem setShed_front (k : Nat) (d : Shed) : (setShed k d s).front = s.front := rfl
@[simp] theorem setShed_scene (k : Nat) (d : Shed) : (setShed k d s).scene = s.scene := rfl
@[simp] theorem setShed_pat (k : Nat) (d : Shed) : (setShed k d s).pat = s.pat := rfl
@[simp] theorem setShed_diag (k : Nat) (d : Shed) : (setShed k d s).diag = s.diag := rfl
@[simp] theorem setShed_lt (k : Nat) (d : Shed) : (setShed k d s).lt = s.lt := rfl
@[simp] theorem setShed_therm (k : Nat) (d : Shed) : (setShed k d s).therm = s.therm := rfl
@[simp] theorem setShed_net (k : Nat) (d : Shed) : (setShed k d s).net = s.net := rfl
@[simp] theorem setShed_can (k : Nat) (d : Shed) : (setShed k d s).can = s.can := rfl
@[simp] theorem setShed_spim (k : Nat) (d : Shed) : (setShed k d s).spim = s.spim := rfl
@[simp] theorem setShed_xip (k : Nat) (d : Shed) : (setShed k d s).xip = s.xip := rfl
@[simp] theorem setShed_pk (k : Nat) (d : Shed) : (setShed k d s).pk = s.pk := rfl
@[simp] theorem setShed_log (k : Nat) (d : Shed) : (setShed k d s).log = s.log := rfl
@[simp] theorem setShed_faults (k : Nat) (d : Shed) : (setShed k d s).faults = s.faults := rfl
@[simp] theorem setShed_store (k : Nat) (d : Shed) : (setShed k d s).store = s.store := rfl
@[simp] theorem setShed_authFails (k : Nat) (d : Shed) : (setShed k d s).authFails = s.authFails := rfl
@[simp] theorem setShed_nextEntry (k : Nat) (d : Shed) : (setShed k d s).nextEntry = s.nextEntry := rfl
@[simp] theorem setShed_turn (k : Nat) (d : Shed) : (setShed k d s).turn = s.turn := rfl

/-! `updShed`. -/

@[simp] theorem updShed_pending (k : Nat) (f : Shed → Shed) : (updShed k f s).pending = s.pending := rfl
@[simp] theorem updShed_now (k : Nat) (f : Shed → Shed) : (updShed k f s).now = s.now := rfl
@[simp] theorem updShed_free (k : Nat) (f : Shed → Shed) : (updShed k f s).free = s.free := rfl
@[simp] theorem updShed_variant (k : Nat) (f : Shed → Shed) : (updShed k f s).variant = s.variant := rfl
@[simp] theorem updShed_regs (k : Nat) (f : Shed → Shed) : (updShed k f s).regs = s.regs := rfl
@[simp] theorem updShed_power (k : Nat) (f : Shed → Shed) : (updShed k f s).power = s.power := rfl
@[simp] theorem updShed_marks (k : Nat) (f : Shed → Shed) : (updShed k f s).marks = s.marks := rfl
@[simp] theorem updShed_links (k : Nat) (f : Shed → Shed) : (updShed k f s).links = s.links := rfl
@[simp] theorem updShed_sess (k : Nat) (f : Shed → Shed) : (updShed k f s).sess = s.sess := rfl
@[simp] theorem updShed_mbx (k : Nat) (f : Shed → Shed) : (updShed k f s).mbx = s.mbx := rfl
@[simp] theorem updShed_fns (k : Nat) (f : Shed → Shed) : (updShed k f s).fns = s.fns := rfl
@[simp] theorem updShed_win (k : Nat) (f : Shed → Shed) : (updShed k f s).win = s.win := rfl
@[simp] theorem updShed_front (k : Nat) (f : Shed → Shed) : (updShed k f s).front = s.front := rfl
@[simp] theorem updShed_scene (k : Nat) (f : Shed → Shed) : (updShed k f s).scene = s.scene := rfl
@[simp] theorem updShed_pat (k : Nat) (f : Shed → Shed) : (updShed k f s).pat = s.pat := rfl
@[simp] theorem updShed_diag (k : Nat) (f : Shed → Shed) : (updShed k f s).diag = s.diag := rfl
@[simp] theorem updShed_lt (k : Nat) (f : Shed → Shed) : (updShed k f s).lt = s.lt := rfl
@[simp] theorem updShed_therm (k : Nat) (f : Shed → Shed) : (updShed k f s).therm = s.therm := rfl
@[simp] theorem updShed_net (k : Nat) (f : Shed → Shed) : (updShed k f s).net = s.net := rfl
@[simp] theorem updShed_can (k : Nat) (f : Shed → Shed) : (updShed k f s).can = s.can := rfl
@[simp] theorem updShed_spim (k : Nat) (f : Shed → Shed) : (updShed k f s).spim = s.spim := rfl
@[simp] theorem updShed_xip (k : Nat) (f : Shed → Shed) : (updShed k f s).xip = s.xip := rfl
@[simp] theorem updShed_pk (k : Nat) (f : Shed → Shed) : (updShed k f s).pk = s.pk := rfl
@[simp] theorem updShed_log (k : Nat) (f : Shed → Shed) : (updShed k f s).log = s.log := rfl
@[simp] theorem updShed_faults (k : Nat) (f : Shed → Shed) : (updShed k f s).faults = s.faults := rfl
@[simp] theorem updShed_store (k : Nat) (f : Shed → Shed) : (updShed k f s).store = s.store := rfl
@[simp] theorem updShed_authFails (k : Nat) (f : Shed → Shed) : (updShed k f s).authFails = s.authFails := rfl
@[simp] theorem updShed_nextEntry (k : Nat) (f : Shed → Shed) : (updShed k f s).nextEntry = s.nextEntry := rfl
@[simp] theorem updShed_turn (k : Nat) (f : Shed → Shed) : (updShed k f s).turn = s.turn := rfl

/-! `setLink`. -/

@[simp] theorem setLink_pending (k : Nat) (l : Link) : (setLink k l s).pending = s.pending := rfl
@[simp] theorem setLink_now (k : Nat) (l : Link) : (setLink k l s).now = s.now := rfl
@[simp] theorem setLink_free (k : Nat) (l : Link) : (setLink k l s).free = s.free := rfl
@[simp] theorem setLink_variant (k : Nat) (l : Link) : (setLink k l s).variant = s.variant := rfl
@[simp] theorem setLink_regs (k : Nat) (l : Link) : (setLink k l s).regs = s.regs := rfl
@[simp] theorem setLink_power (k : Nat) (l : Link) : (setLink k l s).power = s.power := rfl
@[simp] theorem setLink_marks (k : Nat) (l : Link) : (setLink k l s).marks = s.marks := rfl
@[simp] theorem setLink_sheds (k : Nat) (l : Link) : (setLink k l s).sheds = s.sheds := rfl
@[simp] theorem setLink_sess (k : Nat) (l : Link) : (setLink k l s).sess = s.sess := rfl
@[simp] theorem setLink_mbx (k : Nat) (l : Link) : (setLink k l s).mbx = s.mbx := rfl
@[simp] theorem setLink_fns (k : Nat) (l : Link) : (setLink k l s).fns = s.fns := rfl
@[simp] theorem setLink_win (k : Nat) (l : Link) : (setLink k l s).win = s.win := rfl
@[simp] theorem setLink_front (k : Nat) (l : Link) : (setLink k l s).front = s.front := rfl
@[simp] theorem setLink_scene (k : Nat) (l : Link) : (setLink k l s).scene = s.scene := rfl
@[simp] theorem setLink_pat (k : Nat) (l : Link) : (setLink k l s).pat = s.pat := rfl
@[simp] theorem setLink_diag (k : Nat) (l : Link) : (setLink k l s).diag = s.diag := rfl
@[simp] theorem setLink_lt (k : Nat) (l : Link) : (setLink k l s).lt = s.lt := rfl
@[simp] theorem setLink_therm (k : Nat) (l : Link) : (setLink k l s).therm = s.therm := rfl
@[simp] theorem setLink_net (k : Nat) (l : Link) : (setLink k l s).net = s.net := rfl
@[simp] theorem setLink_can (k : Nat) (l : Link) : (setLink k l s).can = s.can := rfl
@[simp] theorem setLink_spim (k : Nat) (l : Link) : (setLink k l s).spim = s.spim := rfl
@[simp] theorem setLink_xip (k : Nat) (l : Link) : (setLink k l s).xip = s.xip := rfl
@[simp] theorem setLink_pk (k : Nat) (l : Link) : (setLink k l s).pk = s.pk := rfl
@[simp] theorem setLink_log (k : Nat) (l : Link) : (setLink k l s).log = s.log := rfl
@[simp] theorem setLink_faults (k : Nat) (l : Link) : (setLink k l s).faults = s.faults := rfl
@[simp] theorem setLink_store (k : Nat) (l : Link) : (setLink k l s).store = s.store := rfl
@[simp] theorem setLink_authFails (k : Nat) (l : Link) : (setLink k l s).authFails = s.authFails := rfl
@[simp] theorem setLink_nextEntry (k : Nat) (l : Link) : (setLink k l s).nextEntry = s.nextEntry := rfl
@[simp] theorem setLink_turn (k : Nat) (l : Link) : (setLink k l s).turn = s.turn := rfl

/-! `updLink`. -/

@[simp] theorem updLink_pending (k : Nat) (f : Link → Link) : (updLink k f s).pending = s.pending := rfl
@[simp] theorem updLink_now (k : Nat) (f : Link → Link) : (updLink k f s).now = s.now := rfl
@[simp] theorem updLink_free (k : Nat) (f : Link → Link) : (updLink k f s).free = s.free := rfl
@[simp] theorem updLink_variant (k : Nat) (f : Link → Link) : (updLink k f s).variant = s.variant := rfl
@[simp] theorem updLink_regs (k : Nat) (f : Link → Link) : (updLink k f s).regs = s.regs := rfl
@[simp] theorem updLink_power (k : Nat) (f : Link → Link) : (updLink k f s).power = s.power := rfl
@[simp] theorem updLink_marks (k : Nat) (f : Link → Link) : (updLink k f s).marks = s.marks := rfl
@[simp] theorem updLink_sheds (k : Nat) (f : Link → Link) : (updLink k f s).sheds = s.sheds := rfl
@[simp] theorem updLink_sess (k : Nat) (f : Link → Link) : (updLink k f s).sess = s.sess := rfl
@[simp] theorem updLink_mbx (k : Nat) (f : Link → Link) : (updLink k f s).mbx = s.mbx := rfl
@[simp] theorem updLink_fns (k : Nat) (f : Link → Link) : (updLink k f s).fns = s.fns := rfl
@[simp] theorem updLink_win (k : Nat) (f : Link → Link) : (updLink k f s).win = s.win := rfl
@[simp] theorem updLink_front (k : Nat) (f : Link → Link) : (updLink k f s).front = s.front := rfl
@[simp] theorem updLink_scene (k : Nat) (f : Link → Link) : (updLink k f s).scene = s.scene := rfl
@[simp] theorem updLink_pat (k : Nat) (f : Link → Link) : (updLink k f s).pat = s.pat := rfl
@[simp] theorem updLink_diag (k : Nat) (f : Link → Link) : (updLink k f s).diag = s.diag := rfl
@[simp] theorem updLink_lt (k : Nat) (f : Link → Link) : (updLink k f s).lt = s.lt := rfl
@[simp] theorem updLink_therm (k : Nat) (f : Link → Link) : (updLink k f s).therm = s.therm := rfl
@[simp] theorem updLink_net (k : Nat) (f : Link → Link) : (updLink k f s).net = s.net := rfl
@[simp] theorem updLink_can (k : Nat) (f : Link → Link) : (updLink k f s).can = s.can := rfl
@[simp] theorem updLink_spim (k : Nat) (f : Link → Link) : (updLink k f s).spim = s.spim := rfl
@[simp] theorem updLink_xip (k : Nat) (f : Link → Link) : (updLink k f s).xip = s.xip := rfl
@[simp] theorem updLink_pk (k : Nat) (f : Link → Link) : (updLink k f s).pk = s.pk := rfl
@[simp] theorem updLink_log (k : Nat) (f : Link → Link) : (updLink k f s).log = s.log := rfl
@[simp] theorem updLink_faults (k : Nat) (f : Link → Link) : (updLink k f s).faults = s.faults := rfl
@[simp] theorem updLink_store (k : Nat) (f : Link → Link) : (updLink k f s).store = s.store := rfl
@[simp] theorem updLink_authFails (k : Nat) (f : Link → Link) : (updLink k f s).authFails = s.authFails := rfl
@[simp] theorem updLink_nextEntry (k : Nat) (f : Link → Link) : (updLink k f s).nextEntry = s.nextEntry := rfl
@[simp] theorem updLink_turn (k : Nat) (f : Link → Link) : (updLink k f s).turn = s.turn := rfl

/-! `setSess`. -/

@[simp] theorem setSess_pending (n : Nat) (x : Session) : (setSess n x s).pending = s.pending := rfl
@[simp] theorem setSess_now (n : Nat) (x : Session) : (setSess n x s).now = s.now := rfl
@[simp] theorem setSess_free (n : Nat) (x : Session) : (setSess n x s).free = s.free := rfl
@[simp] theorem setSess_variant (n : Nat) (x : Session) : (setSess n x s).variant = s.variant := rfl
@[simp] theorem setSess_regs (n : Nat) (x : Session) : (setSess n x s).regs = s.regs := rfl
@[simp] theorem setSess_power (n : Nat) (x : Session) : (setSess n x s).power = s.power := rfl
@[simp] theorem setSess_marks (n : Nat) (x : Session) : (setSess n x s).marks = s.marks := rfl
@[simp] theorem setSess_links (n : Nat) (x : Session) : (setSess n x s).links = s.links := rfl
@[simp] theorem setSess_sheds (n : Nat) (x : Session) : (setSess n x s).sheds = s.sheds := rfl
@[simp] theorem setSess_mbx (n : Nat) (x : Session) : (setSess n x s).mbx = s.mbx := rfl
@[simp] theorem setSess_fns (n : Nat) (x : Session) : (setSess n x s).fns = s.fns := rfl
@[simp] theorem setSess_win (n : Nat) (x : Session) : (setSess n x s).win = s.win := rfl
@[simp] theorem setSess_front (n : Nat) (x : Session) : (setSess n x s).front = s.front := rfl
@[simp] theorem setSess_scene (n : Nat) (x : Session) : (setSess n x s).scene = s.scene := rfl
@[simp] theorem setSess_pat (n : Nat) (x : Session) : (setSess n x s).pat = s.pat := rfl
@[simp] theorem setSess_diag (n : Nat) (x : Session) : (setSess n x s).diag = s.diag := rfl
@[simp] theorem setSess_lt (n : Nat) (x : Session) : (setSess n x s).lt = s.lt := rfl
@[simp] theorem setSess_therm (n : Nat) (x : Session) : (setSess n x s).therm = s.therm := rfl
@[simp] theorem setSess_net (n : Nat) (x : Session) : (setSess n x s).net = s.net := rfl
@[simp] theorem setSess_can (n : Nat) (x : Session) : (setSess n x s).can = s.can := rfl
@[simp] theorem setSess_spim (n : Nat) (x : Session) : (setSess n x s).spim = s.spim := rfl
@[simp] theorem setSess_xip (n : Nat) (x : Session) : (setSess n x s).xip = s.xip := rfl
@[simp] theorem setSess_pk (n : Nat) (x : Session) : (setSess n x s).pk = s.pk := rfl
@[simp] theorem setSess_log (n : Nat) (x : Session) : (setSess n x s).log = s.log := rfl
@[simp] theorem setSess_faults (n : Nat) (x : Session) : (setSess n x s).faults = s.faults := rfl
@[simp] theorem setSess_store (n : Nat) (x : Session) : (setSess n x s).store = s.store := rfl
@[simp] theorem setSess_authFails (n : Nat) (x : Session) : (setSess n x s).authFails = s.authFails := rfl
@[simp] theorem setSess_nextEntry (n : Nat) (x : Session) : (setSess n x s).nextEntry = s.nextEntry := rfl
@[simp] theorem setSess_turn (n : Nat) (x : Session) : (setSess n x s).turn = s.turn := rfl

/-! `updSess`. -/

@[simp] theorem updSess_pending (n : Nat) (f : Session → Session) : (updSess n f s).pending = s.pending := rfl
@[simp] theorem updSess_now (n : Nat) (f : Session → Session) : (updSess n f s).now = s.now := rfl
@[simp] theorem updSess_free (n : Nat) (f : Session → Session) : (updSess n f s).free = s.free := rfl
@[simp] theorem updSess_variant (n : Nat) (f : Session → Session) : (updSess n f s).variant = s.variant := rfl
@[simp] theorem updSess_regs (n : Nat) (f : Session → Session) : (updSess n f s).regs = s.regs := rfl
@[simp] theorem updSess_power (n : Nat) (f : Session → Session) : (updSess n f s).power = s.power := rfl
@[simp] theorem updSess_marks (n : Nat) (f : Session → Session) : (updSess n f s).marks = s.marks := rfl
@[simp] theorem updSess_links (n : Nat) (f : Session → Session) : (updSess n f s).links = s.links := rfl
@[simp] theorem updSess_sheds (n : Nat) (f : Session → Session) : (updSess n f s).sheds = s.sheds := rfl
@[simp] theorem updSess_mbx (n : Nat) (f : Session → Session) : (updSess n f s).mbx = s.mbx := rfl
@[simp] theorem updSess_fns (n : Nat) (f : Session → Session) : (updSess n f s).fns = s.fns := rfl
@[simp] theorem updSess_win (n : Nat) (f : Session → Session) : (updSess n f s).win = s.win := rfl
@[simp] theorem updSess_front (n : Nat) (f : Session → Session) : (updSess n f s).front = s.front := rfl
@[simp] theorem updSess_scene (n : Nat) (f : Session → Session) : (updSess n f s).scene = s.scene := rfl
@[simp] theorem updSess_pat (n : Nat) (f : Session → Session) : (updSess n f s).pat = s.pat := rfl
@[simp] theorem updSess_diag (n : Nat) (f : Session → Session) : (updSess n f s).diag = s.diag := rfl
@[simp] theorem updSess_lt (n : Nat) (f : Session → Session) : (updSess n f s).lt = s.lt := rfl
@[simp] theorem updSess_therm (n : Nat) (f : Session → Session) : (updSess n f s).therm = s.therm := rfl
@[simp] theorem updSess_net (n : Nat) (f : Session → Session) : (updSess n f s).net = s.net := rfl
@[simp] theorem updSess_can (n : Nat) (f : Session → Session) : (updSess n f s).can = s.can := rfl
@[simp] theorem updSess_spim (n : Nat) (f : Session → Session) : (updSess n f s).spim = s.spim := rfl
@[simp] theorem updSess_xip (n : Nat) (f : Session → Session) : (updSess n f s).xip = s.xip := rfl
@[simp] theorem updSess_pk (n : Nat) (f : Session → Session) : (updSess n f s).pk = s.pk := rfl
@[simp] theorem updSess_log (n : Nat) (f : Session → Session) : (updSess n f s).log = s.log := rfl
@[simp] theorem updSess_faults (n : Nat) (f : Session → Session) : (updSess n f s).faults = s.faults := rfl
@[simp] theorem updSess_store (n : Nat) (f : Session → Session) : (updSess n f s).store = s.store := rfl
@[simp] theorem updSess_authFails (n : Nat) (f : Session → Session) : (updSess n f s).authFails = s.authFails := rfl
@[simp] theorem updSess_nextEntry (n : Nat) (f : Session → Session) : (updSess n f s).nextEntry = s.nextEntry := rfl
@[simp] theorem updSess_turn (n : Nat) (f : Session → Session) : (updSess n f s).turn = s.turn := rfl

/-! `setMbx`. -/

@[simp] theorem setMbx_pending (n : Nat) (m : Mailbox) : (setMbx n m s).pending = s.pending := rfl
@[simp] theorem setMbx_now (n : Nat) (m : Mailbox) : (setMbx n m s).now = s.now := rfl
@[simp] theorem setMbx_free (n : Nat) (m : Mailbox) : (setMbx n m s).free = s.free := rfl
@[simp] theorem setMbx_variant (n : Nat) (m : Mailbox) : (setMbx n m s).variant = s.variant := rfl
@[simp] theorem setMbx_regs (n : Nat) (m : Mailbox) : (setMbx n m s).regs = s.regs := rfl
@[simp] theorem setMbx_power (n : Nat) (m : Mailbox) : (setMbx n m s).power = s.power := rfl
@[simp] theorem setMbx_marks (n : Nat) (m : Mailbox) : (setMbx n m s).marks = s.marks := rfl
@[simp] theorem setMbx_links (n : Nat) (m : Mailbox) : (setMbx n m s).links = s.links := rfl
@[simp] theorem setMbx_sheds (n : Nat) (m : Mailbox) : (setMbx n m s).sheds = s.sheds := rfl
@[simp] theorem setMbx_sess (n : Nat) (m : Mailbox) : (setMbx n m s).sess = s.sess := rfl
@[simp] theorem setMbx_fns (n : Nat) (m : Mailbox) : (setMbx n m s).fns = s.fns := rfl
@[simp] theorem setMbx_win (n : Nat) (m : Mailbox) : (setMbx n m s).win = s.win := rfl
@[simp] theorem setMbx_front (n : Nat) (m : Mailbox) : (setMbx n m s).front = s.front := rfl
@[simp] theorem setMbx_scene (n : Nat) (m : Mailbox) : (setMbx n m s).scene = s.scene := rfl
@[simp] theorem setMbx_pat (n : Nat) (m : Mailbox) : (setMbx n m s).pat = s.pat := rfl
@[simp] theorem setMbx_diag (n : Nat) (m : Mailbox) : (setMbx n m s).diag = s.diag := rfl
@[simp] theorem setMbx_lt (n : Nat) (m : Mailbox) : (setMbx n m s).lt = s.lt := rfl
@[simp] theorem setMbx_therm (n : Nat) (m : Mailbox) : (setMbx n m s).therm = s.therm := rfl
@[simp] theorem setMbx_net (n : Nat) (m : Mailbox) : (setMbx n m s).net = s.net := rfl
@[simp] theorem setMbx_can (n : Nat) (m : Mailbox) : (setMbx n m s).can = s.can := rfl
@[simp] theorem setMbx_spim (n : Nat) (m : Mailbox) : (setMbx n m s).spim = s.spim := rfl
@[simp] theorem setMbx_xip (n : Nat) (m : Mailbox) : (setMbx n m s).xip = s.xip := rfl
@[simp] theorem setMbx_pk (n : Nat) (m : Mailbox) : (setMbx n m s).pk = s.pk := rfl
@[simp] theorem setMbx_log (n : Nat) (m : Mailbox) : (setMbx n m s).log = s.log := rfl
@[simp] theorem setMbx_faults (n : Nat) (m : Mailbox) : (setMbx n m s).faults = s.faults := rfl
@[simp] theorem setMbx_store (n : Nat) (m : Mailbox) : (setMbx n m s).store = s.store := rfl
@[simp] theorem setMbx_authFails (n : Nat) (m : Mailbox) : (setMbx n m s).authFails = s.authFails := rfl
@[simp] theorem setMbx_nextEntry (n : Nat) (m : Mailbox) : (setMbx n m s).nextEntry = s.nextEntry := rfl
@[simp] theorem setMbx_turn (n : Nat) (m : Mailbox) : (setMbx n m s).turn = s.turn := rfl

/-! `setFn`. -/

@[simp] theorem setFn_pending (n : Nat) (x : FnDrive) : (setFn n x s).pending = s.pending := rfl
@[simp] theorem setFn_now (n : Nat) (x : FnDrive) : (setFn n x s).now = s.now := rfl
@[simp] theorem setFn_free (n : Nat) (x : FnDrive) : (setFn n x s).free = s.free := rfl
@[simp] theorem setFn_variant (n : Nat) (x : FnDrive) : (setFn n x s).variant = s.variant := rfl
@[simp] theorem setFn_regs (n : Nat) (x : FnDrive) : (setFn n x s).regs = s.regs := rfl
@[simp] theorem setFn_power (n : Nat) (x : FnDrive) : (setFn n x s).power = s.power := rfl
@[simp] theorem setFn_marks (n : Nat) (x : FnDrive) : (setFn n x s).marks = s.marks := rfl
@[simp] theorem setFn_links (n : Nat) (x : FnDrive) : (setFn n x s).links = s.links := rfl
@[simp] theorem setFn_sheds (n : Nat) (x : FnDrive) : (setFn n x s).sheds = s.sheds := rfl
@[simp] theorem setFn_sess (n : Nat) (x : FnDrive) : (setFn n x s).sess = s.sess := rfl
@[simp] theorem setFn_mbx (n : Nat) (x : FnDrive) : (setFn n x s).mbx = s.mbx := rfl
@[simp] theorem setFn_win (n : Nat) (x : FnDrive) : (setFn n x s).win = s.win := rfl
@[simp] theorem setFn_front (n : Nat) (x : FnDrive) : (setFn n x s).front = s.front := rfl
@[simp] theorem setFn_scene (n : Nat) (x : FnDrive) : (setFn n x s).scene = s.scene := rfl
@[simp] theorem setFn_pat (n : Nat) (x : FnDrive) : (setFn n x s).pat = s.pat := rfl
@[simp] theorem setFn_diag (n : Nat) (x : FnDrive) : (setFn n x s).diag = s.diag := rfl
@[simp] theorem setFn_lt (n : Nat) (x : FnDrive) : (setFn n x s).lt = s.lt := rfl
@[simp] theorem setFn_therm (n : Nat) (x : FnDrive) : (setFn n x s).therm = s.therm := rfl
@[simp] theorem setFn_net (n : Nat) (x : FnDrive) : (setFn n x s).net = s.net := rfl
@[simp] theorem setFn_can (n : Nat) (x : FnDrive) : (setFn n x s).can = s.can := rfl
@[simp] theorem setFn_spim (n : Nat) (x : FnDrive) : (setFn n x s).spim = s.spim := rfl
@[simp] theorem setFn_xip (n : Nat) (x : FnDrive) : (setFn n x s).xip = s.xip := rfl
@[simp] theorem setFn_pk (n : Nat) (x : FnDrive) : (setFn n x s).pk = s.pk := rfl
@[simp] theorem setFn_log (n : Nat) (x : FnDrive) : (setFn n x s).log = s.log := rfl
@[simp] theorem setFn_faults (n : Nat) (x : FnDrive) : (setFn n x s).faults = s.faults := rfl
@[simp] theorem setFn_store (n : Nat) (x : FnDrive) : (setFn n x s).store = s.store := rfl
@[simp] theorem setFn_authFails (n : Nat) (x : FnDrive) : (setFn n x s).authFails = s.authFails := rfl
@[simp] theorem setFn_nextEntry (n : Nat) (x : FnDrive) : (setFn n x s).nextEntry = s.nextEntry := rfl
@[simp] theorem setFn_turn (n : Nat) (x : FnDrive) : (setFn n x s).turn = s.turn := rfl

/-! `updFn`. -/

@[simp] theorem updFn_pending (n : Nat) (f : FnDrive → FnDrive) : (updFn n f s).pending = s.pending := rfl
@[simp] theorem updFn_now (n : Nat) (f : FnDrive → FnDrive) : (updFn n f s).now = s.now := rfl
@[simp] theorem updFn_free (n : Nat) (f : FnDrive → FnDrive) : (updFn n f s).free = s.free := rfl
@[simp] theorem updFn_variant (n : Nat) (f : FnDrive → FnDrive) : (updFn n f s).variant = s.variant := rfl
@[simp] theorem updFn_regs (n : Nat) (f : FnDrive → FnDrive) : (updFn n f s).regs = s.regs := rfl
@[simp] theorem updFn_power (n : Nat) (f : FnDrive → FnDrive) : (updFn n f s).power = s.power := rfl
@[simp] theorem updFn_marks (n : Nat) (f : FnDrive → FnDrive) : (updFn n f s).marks = s.marks := rfl
@[simp] theorem updFn_links (n : Nat) (f : FnDrive → FnDrive) : (updFn n f s).links = s.links := rfl
@[simp] theorem updFn_sheds (n : Nat) (f : FnDrive → FnDrive) : (updFn n f s).sheds = s.sheds := rfl
@[simp] theorem updFn_sess (n : Nat) (f : FnDrive → FnDrive) : (updFn n f s).sess = s.sess := rfl
@[simp] theorem updFn_mbx (n : Nat) (f : FnDrive → FnDrive) : (updFn n f s).mbx = s.mbx := rfl
@[simp] theorem updFn_win (n : Nat) (f : FnDrive → FnDrive) : (updFn n f s).win = s.win := rfl
@[simp] theorem updFn_front (n : Nat) (f : FnDrive → FnDrive) : (updFn n f s).front = s.front := rfl
@[simp] theorem updFn_scene (n : Nat) (f : FnDrive → FnDrive) : (updFn n f s).scene = s.scene := rfl
@[simp] theorem updFn_pat (n : Nat) (f : FnDrive → FnDrive) : (updFn n f s).pat = s.pat := rfl
@[simp] theorem updFn_diag (n : Nat) (f : FnDrive → FnDrive) : (updFn n f s).diag = s.diag := rfl
@[simp] theorem updFn_lt (n : Nat) (f : FnDrive → FnDrive) : (updFn n f s).lt = s.lt := rfl
@[simp] theorem updFn_therm (n : Nat) (f : FnDrive → FnDrive) : (updFn n f s).therm = s.therm := rfl
@[simp] theorem updFn_net (n : Nat) (f : FnDrive → FnDrive) : (updFn n f s).net = s.net := rfl
@[simp] theorem updFn_can (n : Nat) (f : FnDrive → FnDrive) : (updFn n f s).can = s.can := rfl
@[simp] theorem updFn_spim (n : Nat) (f : FnDrive → FnDrive) : (updFn n f s).spim = s.spim := rfl
@[simp] theorem updFn_xip (n : Nat) (f : FnDrive → FnDrive) : (updFn n f s).xip = s.xip := rfl
@[simp] theorem updFn_pk (n : Nat) (f : FnDrive → FnDrive) : (updFn n f s).pk = s.pk := rfl
@[simp] theorem updFn_log (n : Nat) (f : FnDrive → FnDrive) : (updFn n f s).log = s.log := rfl
@[simp] theorem updFn_faults (n : Nat) (f : FnDrive → FnDrive) : (updFn n f s).faults = s.faults := rfl
@[simp] theorem updFn_store (n : Nat) (f : FnDrive → FnDrive) : (updFn n f s).store = s.store := rfl
@[simp] theorem updFn_authFails (n : Nat) (f : FnDrive → FnDrive) : (updFn n f s).authFails = s.authFails := rfl
@[simp] theorem updFn_nextEntry (n : Nat) (f : FnDrive → FnDrive) : (updFn n f s).nextEntry = s.nextEntry := rfl
@[simp] theorem updFn_turn (n : Nat) (f : FnDrive → FnDrive) : (updFn n f s).turn = s.turn := rfl

/-! `setDet`. -/

@[simp] theorem setDet_pending (n : Nat) (x : Det) : (setDet n x s).pending = s.pending := rfl
@[simp] theorem setDet_now (n : Nat) (x : Det) : (setDet n x s).now = s.now := rfl
@[simp] theorem setDet_free (n : Nat) (x : Det) : (setDet n x s).free = s.free := rfl
@[simp] theorem setDet_variant (n : Nat) (x : Det) : (setDet n x s).variant = s.variant := rfl
@[simp] theorem setDet_regs (n : Nat) (x : Det) : (setDet n x s).regs = s.regs := rfl
@[simp] theorem setDet_power (n : Nat) (x : Det) : (setDet n x s).power = s.power := rfl
@[simp] theorem setDet_marks (n : Nat) (x : Det) : (setDet n x s).marks = s.marks := rfl
@[simp] theorem setDet_links (n : Nat) (x : Det) : (setDet n x s).links = s.links := rfl
@[simp] theorem setDet_sheds (n : Nat) (x : Det) : (setDet n x s).sheds = s.sheds := rfl
@[simp] theorem setDet_sess (n : Nat) (x : Det) : (setDet n x s).sess = s.sess := rfl
@[simp] theorem setDet_mbx (n : Nat) (x : Det) : (setDet n x s).mbx = s.mbx := rfl
@[simp] theorem setDet_fns (n : Nat) (x : Det) : (setDet n x s).fns = s.fns := rfl
@[simp] theorem setDet_win (n : Nat) (x : Det) : (setDet n x s).win = s.win := rfl
@[simp] theorem setDet_front (n : Nat) (x : Det) : (setDet n x s).front = s.front := rfl
@[simp] theorem setDet_scene (n : Nat) (x : Det) : (setDet n x s).scene = s.scene := rfl
@[simp] theorem setDet_pat (n : Nat) (x : Det) : (setDet n x s).pat = s.pat := rfl
@[simp] theorem setDet_diag (n : Nat) (x : Det) : (setDet n x s).diag = s.diag := rfl
@[simp] theorem setDet_lt (n : Nat) (x : Det) : (setDet n x s).lt = s.lt := rfl
@[simp] theorem setDet_therm (n : Nat) (x : Det) : (setDet n x s).therm = s.therm := rfl
@[simp] theorem setDet_net (n : Nat) (x : Det) : (setDet n x s).net = s.net := rfl
@[simp] theorem setDet_can (n : Nat) (x : Det) : (setDet n x s).can = s.can := rfl
@[simp] theorem setDet_spim (n : Nat) (x : Det) : (setDet n x s).spim = s.spim := rfl
@[simp] theorem setDet_xip (n : Nat) (x : Det) : (setDet n x s).xip = s.xip := rfl
@[simp] theorem setDet_pk (n : Nat) (x : Det) : (setDet n x s).pk = s.pk := rfl
@[simp] theorem setDet_log (n : Nat) (x : Det) : (setDet n x s).log = s.log := rfl
@[simp] theorem setDet_store (n : Nat) (x : Det) : (setDet n x s).store = s.store := rfl
@[simp] theorem setDet_authFails (n : Nat) (x : Det) : (setDet n x s).authFails = s.authFails := rfl
@[simp] theorem setDet_nextEntry (n : Nat) (x : Det) : (setDet n x s).nextEntry = s.nextEntry := rfl
@[simp] theorem setDet_turn (n : Nat) (x : Det) : (setDet n x s).turn = s.turn := rfl

/-! `setCan`. -/

@[simp] theorem setCan_pending (c : Nat) (x : Can) : (setCan c x s).pending = s.pending := rfl
@[simp] theorem setCan_now (c : Nat) (x : Can) : (setCan c x s).now = s.now := rfl
@[simp] theorem setCan_free (c : Nat) (x : Can) : (setCan c x s).free = s.free := rfl
@[simp] theorem setCan_variant (c : Nat) (x : Can) : (setCan c x s).variant = s.variant := rfl
@[simp] theorem setCan_regs (c : Nat) (x : Can) : (setCan c x s).regs = s.regs := rfl
@[simp] theorem setCan_power (c : Nat) (x : Can) : (setCan c x s).power = s.power := rfl
@[simp] theorem setCan_marks (c : Nat) (x : Can) : (setCan c x s).marks = s.marks := rfl
@[simp] theorem setCan_links (c : Nat) (x : Can) : (setCan c x s).links = s.links := rfl
@[simp] theorem setCan_sheds (c : Nat) (x : Can) : (setCan c x s).sheds = s.sheds := rfl
@[simp] theorem setCan_sess (c : Nat) (x : Can) : (setCan c x s).sess = s.sess := rfl
@[simp] theorem setCan_mbx (c : Nat) (x : Can) : (setCan c x s).mbx = s.mbx := rfl
@[simp] theorem setCan_fns (c : Nat) (x : Can) : (setCan c x s).fns = s.fns := rfl
@[simp] theorem setCan_win (c : Nat) (x : Can) : (setCan c x s).win = s.win := rfl
@[simp] theorem setCan_front (c : Nat) (x : Can) : (setCan c x s).front = s.front := rfl
@[simp] theorem setCan_scene (c : Nat) (x : Can) : (setCan c x s).scene = s.scene := rfl
@[simp] theorem setCan_pat (c : Nat) (x : Can) : (setCan c x s).pat = s.pat := rfl
@[simp] theorem setCan_diag (c : Nat) (x : Can) : (setCan c x s).diag = s.diag := rfl
@[simp] theorem setCan_lt (c : Nat) (x : Can) : (setCan c x s).lt = s.lt := rfl
@[simp] theorem setCan_therm (c : Nat) (x : Can) : (setCan c x s).therm = s.therm := rfl
@[simp] theorem setCan_net (c : Nat) (x : Can) : (setCan c x s).net = s.net := rfl
@[simp] theorem setCan_spim (c : Nat) (x : Can) : (setCan c x s).spim = s.spim := rfl
@[simp] theorem setCan_xip (c : Nat) (x : Can) : (setCan c x s).xip = s.xip := rfl
@[simp] theorem setCan_pk (c : Nat) (x : Can) : (setCan c x s).pk = s.pk := rfl
@[simp] theorem setCan_log (c : Nat) (x : Can) : (setCan c x s).log = s.log := rfl
@[simp] theorem setCan_faults (c : Nat) (x : Can) : (setCan c x s).faults = s.faults := rfl
@[simp] theorem setCan_store (c : Nat) (x : Can) : (setCan c x s).store = s.store := rfl
@[simp] theorem setCan_authFails (c : Nat) (x : Can) : (setCan c x s).authFails = s.authFails := rfl
@[simp] theorem setCan_nextEntry (c : Nat) (x : Can) : (setCan c x s).nextEntry = s.nextEntry := rfl
@[simp] theorem setCan_turn (c : Nat) (x : Can) : (setCan c x s).turn = s.turn := rfl

/-! `setSpim`. -/

@[simp] theorem setSpim_pending (p : Nat) (x : Spim) : (setSpim p x s).pending = s.pending := rfl
@[simp] theorem setSpim_now (p : Nat) (x : Spim) : (setSpim p x s).now = s.now := rfl
@[simp] theorem setSpim_free (p : Nat) (x : Spim) : (setSpim p x s).free = s.free := rfl
@[simp] theorem setSpim_variant (p : Nat) (x : Spim) : (setSpim p x s).variant = s.variant := rfl
@[simp] theorem setSpim_regs (p : Nat) (x : Spim) : (setSpim p x s).regs = s.regs := rfl
@[simp] theorem setSpim_power (p : Nat) (x : Spim) : (setSpim p x s).power = s.power := rfl
@[simp] theorem setSpim_marks (p : Nat) (x : Spim) : (setSpim p x s).marks = s.marks := rfl
@[simp] theorem setSpim_links (p : Nat) (x : Spim) : (setSpim p x s).links = s.links := rfl
@[simp] theorem setSpim_sheds (p : Nat) (x : Spim) : (setSpim p x s).sheds = s.sheds := rfl
@[simp] theorem setSpim_sess (p : Nat) (x : Spim) : (setSpim p x s).sess = s.sess := rfl
@[simp] theorem setSpim_mbx (p : Nat) (x : Spim) : (setSpim p x s).mbx = s.mbx := rfl
@[simp] theorem setSpim_fns (p : Nat) (x : Spim) : (setSpim p x s).fns = s.fns := rfl
@[simp] theorem setSpim_win (p : Nat) (x : Spim) : (setSpim p x s).win = s.win := rfl
@[simp] theorem setSpim_front (p : Nat) (x : Spim) : (setSpim p x s).front = s.front := rfl
@[simp] theorem setSpim_scene (p : Nat) (x : Spim) : (setSpim p x s).scene = s.scene := rfl
@[simp] theorem setSpim_pat (p : Nat) (x : Spim) : (setSpim p x s).pat = s.pat := rfl
@[simp] theorem setSpim_diag (p : Nat) (x : Spim) : (setSpim p x s).diag = s.diag := rfl
@[simp] theorem setSpim_lt (p : Nat) (x : Spim) : (setSpim p x s).lt = s.lt := rfl
@[simp] theorem setSpim_therm (p : Nat) (x : Spim) : (setSpim p x s).therm = s.therm := rfl
@[simp] theorem setSpim_net (p : Nat) (x : Spim) : (setSpim p x s).net = s.net := rfl
@[simp] theorem setSpim_can (p : Nat) (x : Spim) : (setSpim p x s).can = s.can := rfl
@[simp] theorem setSpim_xip (p : Nat) (x : Spim) : (setSpim p x s).xip = s.xip := rfl
@[simp] theorem setSpim_pk (p : Nat) (x : Spim) : (setSpim p x s).pk = s.pk := rfl
@[simp] theorem setSpim_log (p : Nat) (x : Spim) : (setSpim p x s).log = s.log := rfl
@[simp] theorem setSpim_faults (p : Nat) (x : Spim) : (setSpim p x s).faults = s.faults := rfl
@[simp] theorem setSpim_store (p : Nat) (x : Spim) : (setSpim p x s).store = s.store := rfl
@[simp] theorem setSpim_authFails (p : Nat) (x : Spim) : (setSpim p x s).authFails = s.authFails := rfl
@[simp] theorem setSpim_nextEntry (p : Nat) (x : Spim) : (setSpim p x s).nextEntry = s.nextEntry := rfl
@[simp] theorem setSpim_turn (p : Nat) (x : Spim) : (setSpim p x s).turn = s.turn := rfl

/-! `setLane`. -/

@[simp] theorem setLane_pending (g : Nat) (x : Lane) : (setLane g x s).pending = s.pending := rfl
@[simp] theorem setLane_now (g : Nat) (x : Lane) : (setLane g x s).now = s.now := rfl
@[simp] theorem setLane_free (g : Nat) (x : Lane) : (setLane g x s).free = s.free := rfl
@[simp] theorem setLane_variant (g : Nat) (x : Lane) : (setLane g x s).variant = s.variant := rfl
@[simp] theorem setLane_regs (g : Nat) (x : Lane) : (setLane g x s).regs = s.regs := rfl
@[simp] theorem setLane_power (g : Nat) (x : Lane) : (setLane g x s).power = s.power := rfl
@[simp] theorem setLane_marks (g : Nat) (x : Lane) : (setLane g x s).marks = s.marks := rfl
@[simp] theorem setLane_links (g : Nat) (x : Lane) : (setLane g x s).links = s.links := rfl
@[simp] theorem setLane_sheds (g : Nat) (x : Lane) : (setLane g x s).sheds = s.sheds := rfl
@[simp] theorem setLane_sess (g : Nat) (x : Lane) : (setLane g x s).sess = s.sess := rfl
@[simp] theorem setLane_mbx (g : Nat) (x : Lane) : (setLane g x s).mbx = s.mbx := rfl
@[simp] theorem setLane_fns (g : Nat) (x : Lane) : (setLane g x s).fns = s.fns := rfl
@[simp] theorem setLane_win (g : Nat) (x : Lane) : (setLane g x s).win = s.win := rfl
@[simp] theorem setLane_front (g : Nat) (x : Lane) : (setLane g x s).front = s.front := rfl
@[simp] theorem setLane_scene (g : Nat) (x : Lane) : (setLane g x s).scene = s.scene := rfl
@[simp] theorem setLane_pat (g : Nat) (x : Lane) : (setLane g x s).pat = s.pat := rfl
@[simp] theorem setLane_diag (g : Nat) (x : Lane) : (setLane g x s).diag = s.diag := rfl
@[simp] theorem setLane_lt (g : Nat) (x : Lane) : (setLane g x s).lt = s.lt := rfl
@[simp] theorem setLane_therm (g : Nat) (x : Lane) : (setLane g x s).therm = s.therm := rfl
@[simp] theorem setLane_net (g : Nat) (x : Lane) : (setLane g x s).net = s.net := rfl
@[simp] theorem setLane_can (g : Nat) (x : Lane) : (setLane g x s).can = s.can := rfl
@[simp] theorem setLane_spim (g : Nat) (x : Lane) : (setLane g x s).spim = s.spim := rfl
@[simp] theorem setLane_xip (g : Nat) (x : Lane) : (setLane g x s).xip = s.xip := rfl
@[simp] theorem setLane_log (g : Nat) (x : Lane) : (setLane g x s).log = s.log := rfl
@[simp] theorem setLane_faults (g : Nat) (x : Lane) : (setLane g x s).faults = s.faults := rfl
@[simp] theorem setLane_store (g : Nat) (x : Lane) : (setLane g x s).store = s.store := rfl
@[simp] theorem setLane_authFails (g : Nat) (x : Lane) : (setLane g x s).authFails = s.authFails := rfl
@[simp] theorem setLane_nextEntry (g : Nat) (x : Lane) : (setLane g x s).nextEntry = s.nextEntry := rfl
@[simp] theorem setLane_turn (g : Nat) (x : Lane) : (setLane g x s).turn = s.turn := rfl

/-! `setPk`. -/

@[simp] theorem setPk_pending (e : Nat) (x : PkEngine) : (setPk e x s).pending = s.pending := rfl
@[simp] theorem setPk_now (e : Nat) (x : PkEngine) : (setPk e x s).now = s.now := rfl
@[simp] theorem setPk_free (e : Nat) (x : PkEngine) : (setPk e x s).free = s.free := rfl
@[simp] theorem setPk_variant (e : Nat) (x : PkEngine) : (setPk e x s).variant = s.variant := rfl
@[simp] theorem setPk_regs (e : Nat) (x : PkEngine) : (setPk e x s).regs = s.regs := rfl
@[simp] theorem setPk_power (e : Nat) (x : PkEngine) : (setPk e x s).power = s.power := rfl
@[simp] theorem setPk_marks (e : Nat) (x : PkEngine) : (setPk e x s).marks = s.marks := rfl
@[simp] theorem setPk_links (e : Nat) (x : PkEngine) : (setPk e x s).links = s.links := rfl
@[simp] theorem setPk_sheds (e : Nat) (x : PkEngine) : (setPk e x s).sheds = s.sheds := rfl
@[simp] theorem setPk_sess (e : Nat) (x : PkEngine) : (setPk e x s).sess = s.sess := rfl
@[simp] theorem setPk_mbx (e : Nat) (x : PkEngine) : (setPk e x s).mbx = s.mbx := rfl
@[simp] theorem setPk_fns (e : Nat) (x : PkEngine) : (setPk e x s).fns = s.fns := rfl
@[simp] theorem setPk_win (e : Nat) (x : PkEngine) : (setPk e x s).win = s.win := rfl
@[simp] theorem setPk_front (e : Nat) (x : PkEngine) : (setPk e x s).front = s.front := rfl
@[simp] theorem setPk_scene (e : Nat) (x : PkEngine) : (setPk e x s).scene = s.scene := rfl
@[simp] theorem setPk_pat (e : Nat) (x : PkEngine) : (setPk e x s).pat = s.pat := rfl
@[simp] theorem setPk_diag (e : Nat) (x : PkEngine) : (setPk e x s).diag = s.diag := rfl
@[simp] theorem setPk_lt (e : Nat) (x : PkEngine) : (setPk e x s).lt = s.lt := rfl
@[simp] theorem setPk_therm (e : Nat) (x : PkEngine) : (setPk e x s).therm = s.therm := rfl
@[simp] theorem setPk_net (e : Nat) (x : PkEngine) : (setPk e x s).net = s.net := rfl
@[simp] theorem setPk_can (e : Nat) (x : PkEngine) : (setPk e x s).can = s.can := rfl
@[simp] theorem setPk_spim (e : Nat) (x : PkEngine) : (setPk e x s).spim = s.spim := rfl
@[simp] theorem setPk_xip (e : Nat) (x : PkEngine) : (setPk e x s).xip = s.xip := rfl
@[simp] theorem setPk_log (e : Nat) (x : PkEngine) : (setPk e x s).log = s.log := rfl
@[simp] theorem setPk_faults (e : Nat) (x : PkEngine) : (setPk e x s).faults = s.faults := rfl
@[simp] theorem setPk_store (e : Nat) (x : PkEngine) : (setPk e x s).store = s.store := rfl
@[simp] theorem setPk_authFails (e : Nat) (x : PkEngine) : (setPk e x s).authFails = s.authFails := rfl
@[simp] theorem setPk_nextEntry (e : Nat) (x : PkEngine) : (setPk e x s).nextEntry = s.nextEntry := rfl
@[simp] theorem setPk_turn (e : Nat) (x : PkEngine) : (setPk e x s).turn = s.turn := rfl

/-! `setIrq`. -/

@[simp] theorem setIrq_pending (i : Nat) : (setIrq i s).pending = s.pending := rfl
@[simp] theorem setIrq_now (i : Nat) : (setIrq i s).now = s.now := rfl
@[simp] theorem setIrq_free (i : Nat) : (setIrq i s).free = s.free := rfl
@[simp] theorem setIrq_variant (i : Nat) : (setIrq i s).variant = s.variant := rfl
@[simp] theorem setIrq_regs (i : Nat) : (setIrq i s).regs = s.regs := rfl
@[simp] theorem setIrq_power (i : Nat) : (setIrq i s).power = s.power := rfl
@[simp] theorem setIrq_marks (i : Nat) : (setIrq i s).marks = s.marks := rfl
@[simp] theorem setIrq_links (i : Nat) : (setIrq i s).links = s.links := rfl
@[simp] theorem setIrq_sheds (i : Nat) : (setIrq i s).sheds = s.sheds := rfl
@[simp] theorem setIrq_sess (i : Nat) : (setIrq i s).sess = s.sess := rfl
@[simp] theorem setIrq_mbx (i : Nat) : (setIrq i s).mbx = s.mbx := rfl
@[simp] theorem setIrq_fns (i : Nat) : (setIrq i s).fns = s.fns := rfl
@[simp] theorem setIrq_win (i : Nat) : (setIrq i s).win = s.win := rfl
@[simp] theorem setIrq_scene (i : Nat) : (setIrq i s).scene = s.scene := rfl
@[simp] theorem setIrq_pat (i : Nat) : (setIrq i s).pat = s.pat := rfl
@[simp] theorem setIrq_diag (i : Nat) : (setIrq i s).diag = s.diag := rfl
@[simp] theorem setIrq_lt (i : Nat) : (setIrq i s).lt = s.lt := rfl
@[simp] theorem setIrq_therm (i : Nat) : (setIrq i s).therm = s.therm := rfl
@[simp] theorem setIrq_net (i : Nat) : (setIrq i s).net = s.net := rfl
@[simp] theorem setIrq_can (i : Nat) : (setIrq i s).can = s.can := rfl
@[simp] theorem setIrq_spim (i : Nat) : (setIrq i s).spim = s.spim := rfl
@[simp] theorem setIrq_xip (i : Nat) : (setIrq i s).xip = s.xip := rfl
@[simp] theorem setIrq_pk (i : Nat) : (setIrq i s).pk = s.pk := rfl
@[simp] theorem setIrq_log (i : Nat) : (setIrq i s).log = s.log := rfl
@[simp] theorem setIrq_faults (i : Nat) : (setIrq i s).faults = s.faults := rfl
@[simp] theorem setIrq_store (i : Nat) : (setIrq i s).store = s.store := rfl
@[simp] theorem setIrq_authFails (i : Nat) : (setIrq i s).authFails = s.authFails := rfl
@[simp] theorem setIrq_nextEntry (i : Nat) : (setIrq i s).nextEntry = s.nextEntry := rfl
@[simp] theorem setIrq_turn (i : Nat) : (setIrq i s).turn = s.turn := rfl

/-! `atTime`. -/

@[simp] theorem atTime_pending (t : Nat) : (atTime t s).pending = s.pending := rfl
@[simp] theorem atTime_free (t : Nat) : (atTime t s).free = s.free := rfl
@[simp] theorem atTime_variant (t : Nat) : (atTime t s).variant = s.variant := rfl
@[simp] theorem atTime_regs (t : Nat) : (atTime t s).regs = s.regs := rfl
@[simp] theorem atTime_power (t : Nat) : (atTime t s).power = s.power := rfl
@[simp] theorem atTime_marks (t : Nat) : (atTime t s).marks = s.marks := rfl
@[simp] theorem atTime_links (t : Nat) : (atTime t s).links = s.links := rfl
@[simp] theorem atTime_sheds (t : Nat) : (atTime t s).sheds = s.sheds := rfl
@[simp] theorem atTime_sess (t : Nat) : (atTime t s).sess = s.sess := rfl
@[simp] theorem atTime_mbx (t : Nat) : (atTime t s).mbx = s.mbx := rfl
@[simp] theorem atTime_fns (t : Nat) : (atTime t s).fns = s.fns := rfl
@[simp] theorem atTime_win (t : Nat) : (atTime t s).win = s.win := rfl
@[simp] theorem atTime_front (t : Nat) : (atTime t s).front = s.front := rfl
@[simp] theorem atTime_scene (t : Nat) : (atTime t s).scene = s.scene := rfl
@[simp] theorem atTime_pat (t : Nat) : (atTime t s).pat = s.pat := rfl
@[simp] theorem atTime_diag (t : Nat) : (atTime t s).diag = s.diag := rfl
@[simp] theorem atTime_lt (t : Nat) : (atTime t s).lt = s.lt := rfl
@[simp] theorem atTime_therm (t : Nat) : (atTime t s).therm = s.therm := rfl
@[simp] theorem atTime_net (t : Nat) : (atTime t s).net = s.net := rfl
@[simp] theorem atTime_can (t : Nat) : (atTime t s).can = s.can := rfl
@[simp] theorem atTime_spim (t : Nat) : (atTime t s).spim = s.spim := rfl
@[simp] theorem atTime_xip (t : Nat) : (atTime t s).xip = s.xip := rfl
@[simp] theorem atTime_pk (t : Nat) : (atTime t s).pk = s.pk := rfl
@[simp] theorem atTime_log (t : Nat) : (atTime t s).log = s.log := rfl
@[simp] theorem atTime_faults (t : Nat) : (atTime t s).faults = s.faults := rfl
@[simp] theorem atTime_store (t : Nat) : (atTime t s).store = s.store := rfl
@[simp] theorem atTime_authFails (t : Nat) : (atTime t s).authFails = s.authFails := rfl
@[simp] theorem atTime_nextEntry (t : Nat) : (atTime t s).nextEntry = s.nextEntry := rfl
@[simp] theorem atTime_turn (t : Nat) : (atTime t s).turn = s.turn := rfl

/-! Reading back. -/

@[simp] theorem atTime_now (t : Nat) : (atTime t s).now = max s.now t := rfl
@[simp] theorem setReg_regs (die n : Nat) (w : Word) : (setReg die n w s).regs = Table.put (regInit n) s.regs (regKey die n) w := rfl
@[simp] theorem setShed_sheds (k : Nat) (d : Shed) : (setShed k d s).sheds = Table.put Shed.init s.sheds k d := rfl
@[simp] theorem setLink_links (k : Nat) (l : Link) : (setLink k l s).links = Table.put Link.init s.links k l := rfl
@[simp] theorem setSess_sess (n : Nat) (x : Session) : (setSess n x s).sess = Table.put Session.init s.sess n x := rfl
@[simp] theorem setMbx_mbx (n : Nat) (m : Mailbox) : (setMbx n m s).mbx = Table.put Mailbox.init s.mbx n m := rfl
@[simp] theorem setFn_fns (n : Nat) (x : FnDrive) : (setFn n x s).fns = Table.put FnDrive.init s.fns n x := rfl
@[simp] theorem setCan_can (c : Nat) (x : Can) : (setCan c x s).can = Table.put Can.init s.can c x := rfl
@[simp] theorem setSpim_spim (p : Nat) (x : Spim) : (setSpim p x s).spim = Table.put Spim.init s.spim p x := rfl

@[simp] theorem getShed_setShed_self (k : Nat) (d : Shed) : getShed (setShed k d s) k = d := Table.get_put_self ..
theorem getShed_setShed_other {j k : Nat} (d : Shed) (h : j ≠ k) : getShed (setShed k d s) j = getShed s j := Table.get_put_other _ _ _ h
@[simp] theorem getShed_updShed_self (k : Nat) (f : Shed → Shed) : getShed (updShed k f s) k = f (getShed s k) := Table.get_put_self ..
theorem getShed_updShed_other {j k : Nat} (f : Shed → Shed) (h : j ≠ k) : getShed (updShed k f s) j = getShed s j := Table.get_put_other _ _ _ h
@[simp] theorem getLink_setLink_self (k : Nat) (l : Link) : getLink (setLink k l s) k = l := Table.get_put_self ..
theorem getLink_setLink_other {j k : Nat} (l : Link) (h : j ≠ k) : getLink (setLink k l s) j = getLink s j := Table.get_put_other _ _ _ h
@[simp] theorem getSess_setSess_self (n : Nat) (x : Session) : getSess (setSess n x s) n = x := Table.get_put_self ..
theorem getSess_setSess_other {j n : Nat} (x : Session) (h : j ≠ n) : getSess (setSess n x s) j = getSess s j := Table.get_put_other _ _ _ h
@[simp] theorem getMbx_setMbx_self (n : Nat) (m : Mailbox) : getMbx (setMbx n m s) n = m := Table.get_put_self ..
theorem getMbx_setMbx_other {j n : Nat} (m : Mailbox) (h : j ≠ n) : getMbx (setMbx n m s) j = getMbx s j := Table.get_put_other _ _ _ h
@[simp] theorem getFn_setFn_self (n : Nat) (x : FnDrive) : getFn (setFn n x s) n = x := Table.get_put_self ..
@[simp] theorem getDet_setDet_self (n : Nat) (x : Det) : getDet (setDet n x s) n = x := Table.get_put_self ..
theorem getDet_setDet_other {j n : Nat} (x : Det) (h : j ≠ n) : getDet (setDet n x s) j = getDet s j := Table.get_put_other _ _ _ h
@[simp] theorem getCan_setCan_self (c : Nat) (x : Can) : getCan (setCan c x s) c = x := Table.get_put_self ..
@[simp] theorem getSpim_setSpim_self (p : Nat) (x : Spim) : getSpim (setSpim p x s) p = x := Table.get_put_self ..
@[simp] theorem getLane_setLane_self (g : Nat) (x : Lane) : getLane (setLane g x s) g = x := Table.get_put_self ..
theorem getLane_setLane_other {j g : Nat} (x : Lane) (h : j ≠ g) : getLane (setLane g x s) j = getLane s j := Table.get_put_other _ _ _ h
@[simp] theorem getPk_setPk_self (e : Nat) (x : PkEngine) : getPk (setPk e x s) e = x := Table.get_put_self ..

/-- A register reads as it was written. -/
@[simp] theorem reg_setReg_self (die n : Nat) (w : Word) : reg (setReg die n w s) die n = w :=
  Table.get_put_self (regInit n) s.regs (regKey die n) w

/-- A write leaves every other register alone. -/
theorem reg_setReg_other {die n die' n' : Nat} (w : Word) (h : regKey die' n' ≠ regKey die n) :
    reg (setReg die n w s) die' n' = reg s die' n' := by
  unfold reg
  have := Table.get_put_other (regInit n) s.regs w h
  unfold setReg Table.put
  split
  · rw [Table.find?_drop_other s.regs h]
  · rw [Table.find?_ins_other _ _ h, Table.find?_drop_other s.regs h]

/-- Dies and numbers name registers apart. -/
theorem regKey_inj {die n die' n' : Nat} (hn : n < 65536) (hn' : n' < 65536) (h : regKey die n = regKey die' n') :
    die = die' ∧ n = n' := by
  unfold regKey at h
  omega

end Sys2Proof.Machine
end

