-- ==== Sys2Proof/Laws/Ops.lean ====
section
/-! SUPPORT. What the shared operations can change. Each lemma takes a reading `p` of the state that the named parts do not
enter, and says that the operation leaves it: the parts are all that the operation can change. -/

namespace Sys2Proof.Machine

-- One declaration after another: side by side they need a thread each, with its own stack.
set_option Elab.async false

open Sys2Proof

variable {β : Type} (p : State → β)

/-- `p` does not read the mailboxes. -/
abbrev NoMbx : Prop := ∀ (s : State) (x : Table Mailbox), p { s with mbx := x } = p s
/-- `p` does not read the network. -/
abbrev NoNet : Prop := ∀ (s : State) (x : Net), p { s with net := x } = p s
/-- `p` does not read the front registers. -/
abbrev NoFront : Prop := ∀ (s : State) (x : Front), p { s with front := x } = p s
/-- `p` does not read the functions. -/
abbrev NoFns : Prop := ∀ (s : State) (x : Table FnDrive), p { s with fns := x } = p s
/-- `p` does not read the registers. -/
abbrev NoRegs : Prop := ∀ (s : State) (x : Table Word), p { s with regs := x } = p s
/-- `p` does not read the modes and supplies. -/
abbrev NoPower : Prop := ∀ (s : State) (x : Power), p { s with power := x } = p s
/-- `p` does not read the commits. -/
abbrev NoScene : Prop := ∀ (s : State) (x : Scene), p { s with scene := x } = p s

theorem forAll_keeps {α : Type} (f : α → State → State) (h : ∀ a s, p (f a s) = p s) (l : List α) (s : State) :
    p (forAll l f s) = p s := by
  induction l generalizing s with
  | nil => rfl
  | cons a l ih => exact (ih (f a s)).trans (h a s)

theorem emit_keeps (hn : NoNet p) (o : NetOut) (s : State) : p (emit o s) = p s := by
  unfold emit; split
  · rfl
  · exact hn s _

theorem sendOwn_keeps (hn : NoNet p) (q : Nat) (m : OwnMsg) (s : State) : p (sendOwn q m s) = p s := by
  unfold sendOwn; dsimp only
  split
  · rfl
  · split
    · split
      · exact emit_keeps p hn _ s
      · rfl
    · split
      · exact hn s _
      · rfl

theorem sendUdp_keeps (hn : NoNet p) (port : Nat) (ip : Word) (a b : BitVec 16) (body : List Byte) (s : State) :
    p (sendUdp port ip a b body s) = p s := by
  unfold sendUdp; split
  · exact sendOwn_keeps p hn ..
  · rfl

theorem sendTo_keeps (hn : NoNet p) (src : Source) (n : Nat) (slot : List Byte) (s : State) : p (sendTo src n slot s) = p s := by
  unfold sendTo
  cases src with
  | spit => rfl
  | udp q ip sp => exact sendUdp_keeps p hn ..
  | can c k => dsimp only; split
               · exact emit_keeps p hn _ s
               · rfl

theorem transmit_keeps (hm : NoMbx p) (hn : NoNet p) (n : Nat) (s : State) : p (transmit n s) = p s := by
  unfold transmit; split
  · rfl
  · dsimp only; split
    · rfl
    · exact (sendTo_keeps p hn ..).trans (hm s _)

/-- Staging writes the mailboxes and the network (10, R289). -/
theorem restage_keeps (hm : NoMbx p) (hn : NoNet p) (n : Nat) (s : State) : p (restage n s) = p s := by
  unfold restage; dsimp only; split
  · split
    · rfl
    · exact (transmit_keeps p hm hn ..).trans (hm s _)
  · split
    · rfl
    · exact (transmit_keeps p hm hn ..).trans (hm s _)
  · rfl

/-- A reply writes the mailboxes and the network (10, R286, R289). -/
theorem pushReply_keeps (hm : NoMbx p) (hn : NoNet p) (n id code detail : Nat) (b : List Byte) (s : State) :
    p (pushReply n id code detail b s) = p s := by
  unfold pushReply; dsimp only; split
  · rfl
  · split
    · exact hm s _
    · exact (restage_keeps p hm hn ..).trans (hm s _)

/-- An event to one session writes the mailboxes and the network (10, R290). -/
theorem pushEvent_keeps (hm : NoMbx p) (hn : NoNet p) (n c a b : Nat) (s : State) : p (pushEvent n c a b s) = p s := by
  unfold pushEvent; dsimp only; split
  · exact hm s _
  · exact (restage_keeps p hm hn ..).trans (hm s _)

theorem setIrq_keeps (hf : NoFront p) (i : Nat) (s : State) : p (setIrq i s) = p s := hf s _

/-- A host event writes the front registers, the mailboxes and the network (10, R290, R308). -/
theorem hostEvent_keeps (hm : NoMbx p) (hn : NoNet p) (hf : NoFront p) (c a b : Nat) (s : State) : p (hostEvent c a b s) = p s := by
  unfold hostEvent; dsimp only
  refine (forAll_keeps p _ (fun n s => pushEvent_keeps p hm hn n c a b s) _ _).trans ?_
  split
  · exact setIrq_keeps p hf _ s
  · rfl

/-- FN_LOST writes the front registers, the mailboxes and the network (10, R292). -/
theorem fnLost_keeps (hm : NoMbx p) (hn : NoNet p) (hf : NoFront p) (n f k : Nat) (s : State) : p (fnLost n f k s) = p s := by
  have key : ∀ s : State, p (if (getSess s n).events.toNat.testBit 4 then pushEvent n 4 f k s else s) = p s := by
    intro s; split
    · exact pushEvent_keeps p hm hn ..
    · rfl
  unfold fnLost; dsimp only
  refine (key _).trans ?_
  split
  · exact setIrq_keeps p hf 6 s
  · rfl

/-- A function's driver is written among the functions and the waiting lapses (10, R292). -/
theorem holdFn_keeps (hfn : NoFns p) (hs : NoScene p) (f : Nat) (h : Holder) (prio : Nat) (s : State) : p (holdFn f h prio s) = p s :=
  (hs _ _).trans (hfn s _)

theorem mapStep_keeps (hfn : NoFns p) (hs : NoScene p) (a : State × List (Nat × Nat)) (q : Nat × Nat) : p (mapStep a q).1 = p a.1 := by
  unfold mapStep; dsimp only
  split
  · split
    · split
      · exact holdFn_keeps p hfn hs ..
      · rfl
    · exact hfn _ _
    · exact holdFn_keeps p hfn hs ..
  · rfl

theorem mapRequest_keeps (hfn : NoFns p) (hs : NoScene p) (s : State) : p (mapRequest s).1 = p s := by
  unfold mapRequest
  generalize mapAll = l
  have key : ∀ a : State × List (Nat × Nat), p (l.foldl mapStep a).1 = p a.1 := by
    induction l with
    | nil => intro a; rfl
    | cons q l ih => intro a; exact (ih _).trans (mapStep_keeps p hfn hs a q)
  exact key (s, [])

/-- The map holder's requests write the functions, the waiting lapses and what FN_LOST writes (11, R332). -/
theorem mapTake_keeps (hm : NoMbx p) (hn : NoNet p) (hf : NoFront p) (hfn : NoFns p) (hs : NoScene p) (s : State) :
    p (mapTake s) = p s := by
  have h := forAll_keeps p (fun (q : Nat × Nat) s => fnLost q.1 q.2 0xFE s) (fun q s => fnLost_keeps p hm hn hf q.1 q.2 0xFE s)
    (mapRequest s).2 (mapRequest s).1
  rw [mapRequest_keeps p hfn hs s] at h
  unfold mapTake
  exact h

/-- The entry to Run writes NW_CFG and what the map holder's requests write (02, Table 2.5; 11, R332). -/
theorem enterRun_keeps (hm : NoMbx p) (hn : NoNet p) (hf : NoFront p) (hfn : NoFns p) (hs : NoScene p) (hr : NoRegs p) (s : State) :
    p (enterRun s) = p s := by
  unfold enterRun; dsimp only; split
  · exact (mapTake_keeps p hm hn hf hfn hs _).trans (hr s _)
  · exact hr s _

theorem noteRun_keeps (hm : NoMbx p) (hn : NoNet p) (hf : NoFront p) (hfn : NoFns p) (hs : NoScene p) (hr : NoRegs p) (s0 s : State) :
    p (noteRun s0 s) = p s := by
  unfold noteRun; split
  · exact enterRun_keeps p hm hn hf hfn hs hr s
  · rfl

theorem noteHeld_keeps (hs : NoScene p) (s : State) : p (noteHeld s) = p s := by
  unfold noteHeld; dsimp only; split <;> exact hs s _

theorem noteIdle_keeps (hp : NoPower p) (s : State) : p (noteIdle s) = p s := hp s _

/-- What every command ends with writes FAIL_N's level and the front registers (10, Table 10.14). -/
theorem settle_keeps (hp : NoPower p) (hf : NoFront p) (s : State) : p (settle s) = p s := by
  unfold settle; split
  · rfl
  · exact (setIrq_keeps p hf 2 _).trans (hp s _)

/-- What follows a meaning leaves every part that it does not write as the meaning left it. -/
theorem after_keeps (hm : NoMbx p) (hn : NoNet p) (hf : NoFront p) (hfn : NoFns p) (hs : NoScene p) (hr : NoRegs p) (hp : NoPower p)
    (hfix : ∀ (s : State) (q : List Instr) (v : Variant) (n : Nat), p { s with pending := q, variant := v, now := n } = p s)
    (t : Nat) (f : State → State) (s : State) : p (after t f s) = p (f (atTime t s)) := by
  unfold after; dsimp only
  rw [settle_keeps p hp hf, noteIdle_keeps p hp, noteHeld_keeps p hs]
  exact (hfix _ _ _ _).trans (noteRun_keeps p hm hn hf hfn hs hr _ _)

variable (t : Nat) (f : State → State) (s : State)

@[simp] theorem settle_pending : (settle s).pending = s.pending := settle_keeps (·.pending) (fun _ _ => rfl) (fun _ _ => rfl) s
@[simp] theorem settle_now : (settle s).now = s.now := settle_keeps (·.now) (fun _ _ => rfl) (fun _ _ => rfl) s
@[simp] theorem settle_variant : (settle s).variant = s.variant := settle_keeps (·.variant) (fun _ _ => rfl) (fun _ _ => rfl) s
@[simp] theorem noteHeld_pending : (noteHeld s).pending = s.pending := noteHeld_keeps (·.pending) (fun _ _ => rfl) s
@[simp] theorem noteHeld_now : (noteHeld s).now = s.now := noteHeld_keeps (·.now) (fun _ _ => rfl) s
@[simp] theorem noteHeld_variant : (noteHeld s).variant = s.variant := noteHeld_keeps (·.variant) (fun _ _ => rfl) s

/-! Part by part. -/

theorem after_free : (after t f s).free = (f (atTime t s)).free :=
  after_keeps (·.free) (fun _ _ => rfl) (fun _ _ => rfl) (fun _ _ => rfl) (fun _ _ => rfl) (fun _ _ => rfl) (fun _ _ => rfl) (fun _ _ => rfl)
    (fun _ _ _ _ => rfl) t f s
theorem after_links : (after t f s).links = (f (atTime t s)).links :=
  after_keeps (·.links) (fun _ _ => rfl) (fun _ _ => rfl) (fun _ _ => rfl) (fun _ _ => rfl) (fun _ _ => rfl) (fun _ _ => rfl) (fun _ _ => rfl)
    (fun _ _ _ _ => rfl) t f s
theorem after_sheds : (after t f s).sheds = (f (atTime t s)).sheds :=
  after_keeps (·.sheds) (fun _ _ => rfl) (fun _ _ => rfl) (fun _ _ => rfl) (fun _ _ => rfl) (fun _ _ => rfl) (fun _ _ => rfl) (fun _ _ => rfl)
    (fun _ _ _ _ => rfl) t f s
theorem after_sess : (after t f s).sess = (f (atTime t s)).sess :=
  after_keeps (·.sess) (fun _ _ => rfl) (fun _ _ => rfl) (fun _ _ => rfl) (fun _ _ => rfl) (fun _ _ => rfl) (fun _ _ => rfl) (fun _ _ => rfl)
    (fun _ _ _ _ => rfl) t f s
theorem after_win : (after t f s).win = (f (atTime t s)).win :=
  after_keeps (·.win) (fun _ _ => rfl) (fun _ _ => rfl) (fun _ _ => rfl) (fun _ _ => rfl) (fun _ _ => rfl) (fun _ _ => rfl) (fun _ _ => rfl)
    (fun _ _ _ _ => rfl) t f s
theorem after_pat : (after t f s).pat = (f (atTime t s)).pat :=
  after_keeps (·.pat) (fun _ _ => rfl) (fun _ _ => rfl) (fun _ _ => rfl) (fun _ _ => rfl) (fun _ _ => rfl) (fun _ _ => rfl) (fun _ _ => rfl)
    (fun _ _ _ _ => rfl) t f s
theorem after_diag : (after t f s).diag = (f (atTime t s)).diag :=
  after_keeps (·.diag) (fun _ _ => rfl) (fun _ _ => rfl) (fun _ _ => rfl) (fun _ _ => rfl) (fun _ _ => rfl) (fun _ _ => rfl) (fun _ _ => rfl)
    (fun _ _ _ _ => rfl) t f s
theorem after_lt : (after t f s).lt = (f (atTime t s)).lt :=
  after_keeps (·.lt) (fun _ _ => rfl) (fun _ _ => rfl) (fun _ _ => rfl) (fun _ _ => rfl) (fun _ _ => rfl) (fun _ _ => rfl) (fun _ _ => rfl)
    (fun _ _ _ _ => rfl) t f s
theorem after_therm : (after t f s).therm = (f (atTime t s)).therm :=
  after_keeps (·.therm) (fun _ _ => rfl) (fun _ _ => rfl) (fun _ _ => rfl) (fun _ _ => rfl) (fun _ _ => rfl) (fun _ _ => rfl) (fun _ _ => rfl)
    (fun _ _ _ _ => rfl) t f s
theorem after_can : (after t f s).can = (f (atTime t s)).can :=
  after_keeps (·.can) (fun _ _ => rfl) (fun _ _ => rfl) (fun _ _ => rfl) (fun _ _ => rfl) (fun _ _ => rfl) (fun _ _ => rfl) (fun _ _ => rfl)
    (fun _ _ _ _ => rfl) t f s
theorem after_spim : (after t f s).spim = (f (atTime t s)).spim :=
  after_keeps (·.spim) (fun _ _ => rfl) (fun _ _ => rfl) (fun _ _ => rfl) (fun _ _ => rfl) (fun _ _ => rfl) (fun _ _ => rfl) (fun _ _ => rfl)
    (fun _ _ _ _ => rfl) t f s
theorem after_xip : (after t f s).xip = (f (atTime t s)).xip :=
  after_keeps (·.xip) (fun _ _ => rfl) (fun _ _ => rfl) (fun _ _ => rfl) (fun _ _ => rfl) (fun _ _ => rfl) (fun _ _ => rfl) (fun _ _ => rfl)
    (fun _ _ _ _ => rfl) t f s
theorem after_pk : (after t f s).pk = (f (atTime t s)).pk :=
  after_keeps (·.pk) (fun _ _ => rfl) (fun _ _ => rfl) (fun _ _ => rfl) (fun _ _ => rfl) (fun _ _ => rfl) (fun _ _ => rfl) (fun _ _ => rfl)
    (fun _ _ _ _ => rfl) t f s
theorem after_log : (after t f s).log = (f (atTime t s)).log :=
  after_keeps (·.log) (fun _ _ => rfl) (fun _ _ => rfl) (fun _ _ => rfl) (fun _ _ => rfl) (fun _ _ => rfl) (fun _ _ => rfl) (fun _ _ => rfl)
    (fun _ _ _ _ => rfl) t f s
theorem after_faults : (after t f s).faults = (f (atTime t s)).faults :=
  after_keeps (·.faults) (fun _ _ => rfl) (fun _ _ => rfl) (fun _ _ => rfl) (fun _ _ => rfl) (fun _ _ => rfl) (fun _ _ => rfl) (fun _ _ => rfl)
    (fun _ _ _ _ => rfl) t f s
theorem after_store : (after t f s).store = (f (atTime t s)).store :=
  after_keeps (·.store) (fun _ _ => rfl) (fun _ _ => rfl) (fun _ _ => rfl) (fun _ _ => rfl) (fun _ _ => rfl) (fun _ _ => rfl) (fun _ _ => rfl)
    (fun _ _ _ _ => rfl) t f s
theorem after_marks : (after t f s).marks = (f (atTime t s)).marks :=
  after_keeps (·.marks) (fun _ _ => rfl) (fun _ _ => rfl) (fun _ _ => rfl) (fun _ _ => rfl) (fun _ _ => rfl) (fun _ _ => rfl) (fun _ _ => rfl)
    (fun _ _ _ _ => rfl) t f s
theorem after_authFails : (after t f s).authFails = (f (atTime t s)).authFails :=
  after_keeps (·.authFails) (fun _ _ => rfl) (fun _ _ => rfl) (fun _ _ => rfl) (fun _ _ => rfl) (fun _ _ => rfl) (fun _ _ => rfl) (fun _ _ => rfl)
    (fun _ _ _ _ => rfl) t f s
theorem after_turn : (after t f s).turn = (f (atTime t s)).turn :=
  after_keeps (·.turn) (fun _ _ => rfl) (fun _ _ => rfl) (fun _ _ => rfl) (fun _ _ => rfl) (fun _ _ => rfl) (fun _ _ => rfl) (fun _ _ => rfl)
    (fun _ _ _ _ => rfl) t f s
theorem after_nextEntry : (after t f s).nextEntry = (f (atTime t s)).nextEntry :=
  after_keeps (·.nextEntry) (fun _ _ => rfl) (fun _ _ => rfl) (fun _ _ => rfl) (fun _ _ => rfl) (fun _ _ => rfl) (fun _ _ => rfl) (fun _ _ => rfl)
    (fun _ _ _ _ => rfl) t f s
/-- A command leaves the queue's rest. -/
theorem after_pending : (after t f s).pending = s.pending := by
  unfold after; dsimp only; rw [settle_pending]; exact noteHeld_pending _

/-- A command leaves the family member. -/
theorem after_variant : (after t f s).variant = s.variant := by
  unfold after; dsimp only; rw [settle_variant]; exact noteHeld_variant _

/-- The clock stands at the command's instant, or where it stood. -/
theorem after_now : (after t f s).now = max s.now t := by
  unfold after; dsimp only; rw [settle_now]; exact noteHeld_now _

/-- Without an entry to Run, what follows a meaning writes no register, function, mailbox or network part. -/
theorem noteRun_same (s0 x : State) (h : x.power.mode = .run → s0.power.mode = .run) : noteRun s0 x = x := by
  unfold noteRun; split
  · rename_i c; exact absurd (h c.1) c.2
  · rfl

theorem after_keeps_same (hf : NoFront p) (hs : NoScene p) (hp : NoPower p)
    (hfix : ∀ (s : State) (q : List Instr) (v : Variant) (n : Nat), p { s with pending := q, variant := v, now := n } = p s)
    (h : (f (atTime t s)).power.mode = .run → s.power.mode = .run) : p (after t f s) = p (f (atTime t s)) := by
  unfold after; dsimp only
  rw [settle_keeps p hp hf, noteIdle_keeps p hp, noteHeld_keeps p hs, noteRun_same (atTime t s) _ h]
  exact hfix _ _ _ _

theorem after_regs_same (h : (f (atTime t s)).power.mode = .run → s.power.mode = .run) :
    (after t f s).regs = (f (atTime t s)).regs :=
  after_keeps_same (·.regs) t f s (fun _ _ => rfl) (fun _ _ => rfl) (fun _ _ => rfl) (fun _ _ _ _ => rfl) h
theorem after_mbx_same (h : (f (atTime t s)).power.mode = .run → s.power.mode = .run) :
    (after t f s).mbx = (f (atTime t s)).mbx :=
  after_keeps_same (·.mbx) t f s (fun _ _ => rfl) (fun _ _ => rfl) (fun _ _ => rfl) (fun _ _ _ _ => rfl) h
theorem after_fns_same (h : (f (atTime t s)).power.mode = .run → s.power.mode = .run) :
    (after t f s).fns = (f (atTime t s)).fns :=
  after_keeps_same (·.fns) t f s (fun _ _ => rfl) (fun _ _ => rfl) (fun _ _ => rfl) (fun _ _ _ _ => rfl) h
theorem after_net_same (h : (f (atTime t s)).power.mode = .run → s.power.mode = .run) :
    (after t f s).net = (f (atTime t s)).net :=
  after_keeps_same (·.net) t f s (fun _ _ => rfl) (fun _ _ => rfl) (fun _ _ => rfl) (fun _ _ _ _ => rfl) h

/-! The parts that what follows a meaning writes in places of their own. -/

theorem settle_power (q : Power → β) (h : ∀ w x, q { w with failLevel := x } = q w) : q (settle s).power = q s.power := by
  unfold settle; split
  · rfl
  · exact h _ _

theorem noteHeld_scene (q : Scene → β) (h : ∀ w x, q { w with heldSince := x } = q w) : q (noteHeld s).scene = q s.scene := by
  unfold noteHeld; dsimp only; split <;> exact h _ _

/-- Modes and supplies: all but FAIL_N's level and the idle instant stay as the meaning left them. -/
theorem after_power (q : Power → β) (h1 : ∀ w x, q { w with failLevel := x } = q w) (h2 : ∀ w x, q { w with idleSince := x } = q w) :
    q (after t f s).power = q (f (atTime t s)).power := by
  have h4 : (noteHeld (holdFixed (atTime t s) (noteRun (atTime t s) (f (atTime t s))))).power = (f (atTime t s)).power :=
    (noteHeld_keeps (·.power) (fun _ _ => rfl) _).trans
      (noteRun_keeps (·.power) (fun _ _ => rfl) (fun _ _ => rfl) (fun _ _ => rfl) (fun _ _ => rfl) (fun _ _ => rfl) (fun _ _ => rfl) _ _)
  unfold after; dsimp only
  rw [settle_power _ q h1]
  refine (h2 _ _).trans ?_
  rw [h4]

/-- Commits: all but the waiting instant stay as the meaning left them. -/
theorem after_scene_same (q : Scene → β) (h1 : ∀ w x, q { w with heldSince := x } = q w)
    (h : (f (atTime t s)).power.mode = .run → s.power.mode = .run) : q (after t f s).scene = q (f (atTime t s)).scene := by
  unfold after; dsimp only
  rw [settle_keeps (fun s => q s.scene) (fun _ _ => rfl) (fun _ _ => rfl)]
  refine (noteHeld_scene _ q h1).trans ?_
  rw [noteRun_same (atTime t s) _ h]
  rfl

/-- Front registers: all but the flags stay as the meaning left them. -/
theorem after_front_same (q : Front → β) (h1 : ∀ w x, q { w with irqFlags := x } = q w)
    (h : (f (atTime t s)).power.mode = .run → s.power.mode = .run) : q (after t f s).front = q (f (atTime t s)).front := by
  have key : ∀ x : State, q (settle x).front = q x.front := by
    intro x; unfold settle; split
    · rfl
    · exact h1 _ _
  unfold after; dsimp only
  rw [key, noteRun_same (atTime t s) _ h]
  exact congrArg q (noteHeld_keeps (·.front) (fun _ _ => rfl) _)

/-- FAIL_N's level does not enter what FAIL_N depends on. -/
theorem failN_settle : failN (settle s) = failN s := by
  unfold settle; split
  · rfl
  · rfl

/-- After every command FAIL_N is driven at the level that the state demands (08, R251). -/
theorem after_failLevel : (after t f s).power.failLevel = failN (after t f s) := by
  unfold after; dsimp only
  generalize noteIdle (noteHeld (holdFixed (atTime t s) (noteRun (atTime t s) (f (atTime t s))))) = x
  rw [failN_settle]
  unfold settle; split
  · rename_i h; exact h.symm
  · rfl

end Sys2Proof.Machine
end

