-- ==== Sys2Proof/Laws/Exec.lean ====
section
/-! SUPPORT. What a command can answer: the next state that follows its meaning, or the fault of a die that is not there. -/

namespace Sys2Proof.Machine

-- One declaration after another: side by side they need a thread each, with its own stack.
set_option Elab.async false

open Sys2Proof

/-- The answers of a command: a next state that some meaning at some instant gives. -/
def Follows (s : State) (o : Host.Outcome State Fault Refusal) : Prop := ∃ t f, o = .next (after t f s)

theorem act_follows (t : Nat) (f : State → State) (s : State) : Follows s (act t f s) := ⟨t, f, rfl⟩

theorem actOn_follows (k t : Nat) (f : State → State) (s : State) :
    (isPresent s k = true ∧ Follows s (actOn k t f s)) ∨ (isPresent s k = false ∧ actOn k t f s = .fault (.absentShed k)) := by
  unfold actOn
  by_cases h : isPresent s k = true
  · rw [if_pos h]; exact .inl ⟨h, act_follows t f s⟩
  · rw [if_neg h]; exact .inr ⟨by simpa using h, rfl⟩

/-- What a command that names shed `o`, or none, answers. -/
def Answers (s : State) (o : Option Nat) (r : Host.Outcome State Fault Refusal) : Prop :=
  match o with
  | none => Follows s r
  | some k => (isPresent s k = true ∧ Follows s r) ∨ (isPresent s k = false ∧ r = .fault (.absentShed k))

theorem actDie_answers (die t : Nat) (f : State → State) (s : State) :
    Answers s (if die = 0 then none else some (die - 1)) (actDie die t f s) := by
  unfold actDie
  split
  · exact act_follows t f s
  · exact actOn_follows (die - 1) t f s

theorem scrubPass_answers (m : ScrubMem) (t : Nat) (f : State → State) (s : State) :
    Answers s m.shedOf (actDie (scrubDie m) t f s) := by
  have h := actDie_answers (scrubDie m) t f s
  cases m <;> exact h

theorem endShadow_answers (b : ShadowBlock) (t : Nat) (f : State → State) (s : State) :
    Answers s b.shedOf (actDie (shadowDie b) t f s) := by
  have h := actDie_answers (shadowDie b) t f s
  cases b <;> exact h

/-- Every command answers a next state that follows a meaning, unless it names a shed that the family member lacks, which is the
one fault; no command is refused. -/
theorem exec_answers (c : Instr) (s : State) : Answers s c.shedOf (exec c s) := by
  cases c <;> first
    | exact act_follows _ _ _
    | exact actOn_follows _ _ _ _
    | exact actDie_answers _ _ _ _
    | exact scrubPass_answers _ _ _ _
    | exact endShadow_answers _ _ _ _

end Sys2Proof.Machine
end

