-- ==== Sys2Proof/Laws/Jhp.lean ====
section
/-! SUPPORT. What running a JHP command leaves: its reply in its mailbox, and what its own part changes. -/

namespace Sys2Proof.Machine

-- One declaration after another: side by side they need a thread each, with its own stack.
set_option Elab.async false

open Sys2Proof

/-! Parts. -/

theorem leaves_refl (l : List StatePart) (s : State) : leaves l s s := by
  intro q _; cases q <;> rfl

theorem eqv_trans {q : StatePart} {s u v : State} (h : q.eqv s u) (g : q.eqv u v) : q.eqv s v := by
  cases q <;> simp only [StatePart.eqv] at h g ⊢ <;> first | exact g.trans h | (rw [← h, ← g])

theorem leaves_trans {l : List StatePart} {s u v : State} (h : leaves l s u) (g : leaves l u v) : leaves l s v :=
  fun q hq => eqv_trans (h q hq) (g q hq)

theorem leaves_mono {l m : List StatePart} {s u : State} (h : leaves l s u) (hs : ∀ q ∈ l, q ∈ m) : leaves m s u :=
  fun q hq => h q fun c => hq (hs q c)

/-! One part written. -/

theorem put_clock (s : State) (x : Nat) : leaves [.clock] s { s with now := x } := by
  intro q hq; cases q <;> first | rfl | exact absurd (by decide) hq
theorem put_queue (s : State) (x : List Instr) : leaves [.queue] s { s with pending := x } := by
  intro q hq; cases q <;> first | rfl | exact absurd (by decide) hq
theorem put_variant (s : State) (x : Variant) : leaves [.variant] s { s with variant := x } := by
  intro q hq; cases q <;> first | rfl | exact absurd (by decide) hq
theorem put_free (s : State) (x : Nat) : leaves [.free] s { s with free := x } := by
  intro q hq; cases q <;> first | rfl | exact absurd (by decide) hq
theorem put_regs (s : State) (x : Table Word) : leaves [.regs] s { s with regs := x } := by
  intro q hq; cases q <;> first | rfl | exact absurd (by decide) hq
theorem put_power (s : State) (x : Power) : leaves [.power] s { s with power := x } := by
  intro q hq; cases q <;> first | rfl | exact absurd (by decide) hq
theorem put_marks (s : State) (x : Marks) : leaves [.marks] s { s with marks := x } := by
  intro q hq; cases q <;> first | rfl | exact absurd (by decide) hq
theorem put_links (s : State) (x : Table Link) : leaves [.links] s { s with links := x } := by
  intro q hq; cases q <;> first | rfl | exact absurd (by decide) hq
theorem put_sheds (s : State) (x : Table Shed) : leaves [.sheds] s { s with sheds := x } := by
  intro q hq; cases q <;> first | rfl | exact absurd (by decide) hq
theorem put_sess (s : State) (x : Table Session) : leaves [.sess] s { s with sess := x } := by
  intro q hq; cases q <;> first | rfl | exact absurd (by decide) hq
theorem put_mbx (s : State) (x : Table Mailbox) : leaves [.mbx] s { s with mbx := x } := by
  intro q hq; cases q <;> first | rfl | exact absurd (by decide) hq
theorem put_fns (s : State) (x : Table FnDrive) : leaves [.fns] s { s with fns := x } := by
  intro q hq; cases q <;> first | rfl | exact absurd (by decide) hq
theorem put_win (s : State) (x : Window) : leaves [.win] s { s with win := x } := by
  intro q hq; cases q <;> first | rfl | exact absurd (by decide) hq
theorem put_scene (s : State) (x : Scene) : leaves [.scene] s { s with scene := x } := by
  intro q hq; cases q <;> first | rfl | exact absurd (by decide) hq
theorem put_pat (s : State) (x : PatYard) : leaves [.pat] s { s with pat := x } := by
  intro q hq; cases q <;> first | rfl | exact absurd (by decide) hq
theorem put_diag (s : State) (x : DiagYard) : leaves [.diag] s { s with diag := x } := by
  intro q hq; cases q <;> first | rfl | exact absurd (by decide) hq
theorem put_lt (s : State) (x : LtYard) : leaves [.lt] s { s with lt := x } := by
  intro q hq; cases q <;> first | rfl | exact absurd (by decide) hq
theorem put_therm (s : State) (x : Thermal) : leaves [.therm] s { s with therm := x } := by
  intro q hq; cases q <;> first | rfl | exact absurd (by decide) hq
theorem put_net (s : State) (x : Net) : leaves [.net] s { s with net := x } := by
  intro q hq; cases q <;> first | rfl | exact absurd (by decide) hq
theorem put_can (s : State) (x : Table Can) : leaves [.can] s { s with can := x } := by
  intro q hq; cases q <;> first | rfl | exact absurd (by decide) hq
theorem put_spim (s : State) (x : Table Spim) : leaves [.spim] s { s with spim := x } := by
  intro q hq; cases q <;> first | rfl | exact absurd (by decide) hq
theorem put_xip (s : State) (x : Xip) : leaves [.xip] s { s with xip := x } := by
  intro q hq; cases q <;> first | rfl | exact absurd (by decide) hq
theorem put_pk (s : State) (x : Paddock) : leaves [.pk] s { s with pk := x } := by
  intro q hq; cases q <;> first | rfl | exact absurd (by decide) hq
theorem put_log (s : State) (x : Log) : leaves [.log] s { s with log := x } := by
  intro q hq; cases q <;> first | rfl | exact absurd (by decide) hq
theorem put_faults (s : State) (x : Faults) : leaves [.faults] s { s with faults := x } := by
  intro q hq; cases q <;> first | rfl | exact absurd (by decide) hq
theorem put_store (s : State) (x : Store) : leaves [.store] s { s with store := x } := by
  intro q hq; cases q <;> first | rfl | exact absurd (by decide) hq
theorem put_authFails (s : State) (x : Table (List Nat)) : leaves [.authFails] s { s with authFails := x } := by
  intro q hq; cases q <;> first | rfl | exact absurd (by decide) hq
theorem put_entries (s : State) (x : Nat) : leaves [.entries] s { s with nextEntry := x } := by
  intro q hq; cases q <;> first | rfl | exact absurd (by decide) hq
theorem put_turn (s : State) (x : List Nat) : leaves [.turn] s { s with turn := x } := by
  intro q hq; cases q <;> first | rfl | exact absurd (by decide) hq
theorem put_flags (s : State) (x : Word) : leaves [.flags] s { s with front := { s.front with irqFlags := x } } := by
  intro q hq; cases q <;> first | rfl | exact absurd (by decide) hq
theorem put_front (s : State) (x : Front) (h : x.irqFlags = s.front.irqFlags) : leaves [.front] s { s with front := x } := by
  intro q hq; cases q <;> first | rfl | exact h | exact absurd (by decide) hq

/-- Two changes in a row change what either changes. -/
theorem leaves_chain {l m k : List StatePart} {s u v : State} (h : leaves l s u) (g : leaves m u v)
    (hl : ∀ q ∈ l, q ∈ k := by decide) (hm : ∀ q ∈ m, q ∈ k := by decide) : leaves k s v :=
  leaves_trans (leaves_mono h hl) (leaves_mono g hm)

theorem leaves_wider {l k : List StatePart} {s u : State} (h : leaves l s u) (hl : ∀ q ∈ l, q ∈ k := by decide) : leaves k s u :=
  leaves_mono h hl

theorem leaves_ite {l : List StatePart} {s a b : State} {c : Prop} [Decidable c] (ha : leaves l s a) (hb : leaves l s b) :
    leaves l s (if c then a else b) := by
  split
  · exact ha
  · exact hb

theorem leaves_forAll {α : Type} {l : List StatePart} {f : α → State → State} (h : ∀ a s, leaves l s (f a s)) (xs : List α) (s : State) :
    leaves l s (forAll xs f s) := by
  induction xs generalizing s with
  | nil => exact leaves_refl l s
  | cons a xs ih => exact leaves_trans (h a s) (ih (f a s))

theorem leaves_atTime (t : Nat) (s : State) : leaves [.clock] s (atTime t s) := by
  intro q hq; cases q <;> first | rfl | exact absurd (by decide) hq

theorem settle_flags {x : State} {b : Bool} (hx : x.power.failLevel = b) :
    (settle x).front.irqFlags = if (settle x).power.failLevel = b then x.front.irqFlags else x.front.irqFlags ||| 4 := by
  unfold settle
  by_cases c : failN x = x.power.failLevel
  · simp only [if_pos c, if_pos hx]
  · simp only [if_neg c]
    rw [if_neg]
    · rfl
    · intro d; exact c (d.trans hx.symm)

/-- IRQ_FLAGS after a command: as its meaning left them, with FAIL when the level of FAIL_N has changed (10, Table 10.14). -/
theorem after_flags {t : Nat} {f : State → State} {s : State} (hm : (f (atTime t s)).power.mode = .run → s.power.mode = .run)
    (hf : (f (atTime t s)).power.failLevel = s.power.failLevel) :
    (after t f s).front.irqFlags = if (after t f s).power.failLevel = s.power.failLevel then (f (atTime t s)).front.irqFlags
      else (f (atTime t s)).front.irqFlags ||| 4 := by
  have e0 : after t f s = settle (noteIdle (noteHeld (holdFixed (atTime t s) (f (atTime t s))))) := by
    unfold after; dsimp only; rw [noteRun_same (atTime t s) _ hm]
  have e1 : ∀ x : State, (noteIdle (noteHeld x)).front = x.front := fun x => noteHeld_keeps (·.front) (fun _ _ => rfl) x
  have e2 : ∀ x : State, (noteIdle (noteHeld x)).power.failLevel = x.power.failLevel :=
    fun x => noteHeld_keeps (·.power.failLevel) (fun _ _ => rfl) x
  have e3 := settle_flags (x := noteIdle (noteHeld (holdFixed (atTime t s) (f (atTime t s))))) (b := s.power.failLevel)
    ((e2 _).trans hf)
  rw [e1] at e3
  rw [e0]
  exact e3

/-- What a meaning changes is what its command changes, unless the mode becomes Run (02, Table 2.5). -/
theorem changesOnly_after {l : List StatePart} {t : Nat} {f : State → State} {s : State} (h : leaves l (atTime t s) (f (atTime t s)))
    (hm : (f (atTime t s)).power.mode = .run → s.power.mode = .run) (hf : (f (atTime t s)).power.failLevel = s.power.failLevel) :
    changesOnly l t s (after t f s) := by
  refine ⟨after_now t f s, fun q hq => ?_⟩
  have h := h q hq
  cases q <;> simp only [StatePart.same, StatePart.eqv] at h ⊢
  case queue => exact after_pending t f s
  case variant => exact after_variant t f s
  case free => exact (after_free t f s).trans h
  case regs => exact (after_regs_same t f s hm).trans h
  case power =>
    have key := after_power t f s (fun w => { w with failLevel := s.power.failLevel, idleSince := s.power.idleSince })
      (fun _ _ => rfl) (fun _ _ => rfl)
    refine key.trans ?_
    rw [h]; rfl
  case marks => exact (after_marks t f s).trans h
  case links => exact (after_links t f s).trans h
  case sheds => exact (after_sheds t f s).trans h
  case sess => exact (after_sess t f s).trans h
  case mbx => exact (after_mbx_same t f s hm).trans h
  case fns => exact (after_fns_same t f s hm).trans h
  case win => exact (after_win t f s).trans h
  case front =>
    exact (after_front_same t f s (fun w => { w with irqFlags := s.front.irqFlags }) (fun _ _ => rfl) hm).trans h
  case flags =>
    refine (after_flags hm hf).trans ?_
    split
    · exact h
    · exact congrArg (· ||| 4) h
  case scene =>
    have key := after_scene_same t f s (fun w => { w with heldSince := s.scene.heldSince }) (fun _ _ => rfl) hm
    refine key.trans ?_
    rw [h]; rfl
  case pat => exact (after_pat t f s).trans h
  case diag => exact (after_diag t f s).trans h
  case lt => exact (after_lt t f s).trans h
  case therm => exact (after_therm t f s).trans h
  case net => exact (after_net_same t f s hm).trans h
  case can => exact (after_can t f s).trans h
  case spim => exact (after_spim t f s).trans h
  case xip => exact (after_xip t f s).trans h
  case pk => exact (after_pk t f s).trans h
  case log => exact (after_log t f s).trans h
  case faults => exact (after_faults t f s).trans h
  case store => exact (after_store t f s).trans h
  case authFails => exact (after_authFails t f s).trans h
  case entries => exact (after_nextEntry t f s).trans h
  case turn => exact (after_turn t f s).trans h

/-- The same for a meaning that leaves the modes and supplies as they are. -/
theorem changesOnly_of_leaves {l : List StatePart} {t : Nat} {f : State → State} {s : State} (h : leaves l (atTime t s) (f (atTime t s)))
    (hp : StatePart.power ∉ l) : changesOnly l t s (after t f s) := by
  have e : (f (atTime t s)).power = s.power := h .power hp
  exact changesOnly_after h (fun c => by rw [e] at c; exact c) (by rw [e])

/-! Replies. -/

theorem getMbx_setMbx (j n : Nat) (m : Mailbox) (s : State) : getMbx (setMbx n m s) j = if j = n then m else getMbx s j := by
  split
  · rename_i h; subst h; exact getMbx_setMbx_self s j m
  · rename_i h; exact getMbx_setMbx_other s m h

theorem getMbx_emit (o : NetOut) (s : State) (j : Nat) : getMbx (emit o s) j = getMbx s j :=
  emit_keeps (fun s => getMbx s j) (fun _ _ => rfl) o s

theorem getMbx_sendTo (src : Source) (n : Nat) (b : List Byte) (s : State) (j : Nat) : getMbx (sendTo src n b s) j = getMbx s j :=
  sendTo_keeps (fun s => getMbx s j) (fun _ _ => rfl) src n b s

theorem getMbx_transmit_other {n j : Nat} (h : j ≠ n) (s : State) : getMbx (transmit n s) j = getMbx s j := by
  unfold transmit
  split
  · rfl
  · dsimp only
    split
    · rfl
    · rw [getMbx_sendTo, getMbx_setMbx, if_neg h]

theorem getMbx_restage_other {n j : Nat} (h : j ≠ n) (s : State) : getMbx (restage n s) j = getMbx s j := by
  unfold restage; dsimp only
  split
  · split
    · rfl
    · rw [getMbx_transmit_other h, getMbx_setMbx, if_neg h]
  · split
    · rfl
    · rw [getMbx_transmit_other h, getMbx_setMbx, if_neg h]
  · rfl

/-- What sending and staging leave of a mailbox: only the marks of its first item change. -/
def restaged (m m' : Mailbox) : Prop :=
  m'.replies.map shown = m.replies.map shown ∧ m'.queue = m.queue ∧ m'.slot = m.slot ∧ m'.bell = m.bell ∧ m'.evSeq = m.evSeq
    ∧ (m.replies ≠ [] → m'.events = m.events ∧ m'.lost = m.lost)

theorem restaged_refl (m : Mailbox) : restaged m m := ⟨rfl, rfl, rfl, rfl, rfl, fun _ => ⟨rfl, rfl⟩⟩

theorem restaged_trans {a b c : Mailbox} (h : restaged a b) (g : restaged b c) : restaged a c := by
  obtain ⟨h1, h2, h3, h4, h5, h6⟩ := h
  obtain ⟨g1, g2, g3, g4, g5, g6⟩ := g
  refine ⟨g1.trans h1, g2.trans h2, g3.trans h3, g4.trans h4, g5.trans h5, fun x => ?_⟩
  have g6 := g6 (by intro y; rw [y] at h1; exact x (by simpa using h1.symm))
  exact ⟨g6.1.trans (h6 x).1, g6.2.trans (h6 x).2⟩

/-- Sending the staged item marks when it was sent. -/
theorem transmit_restaged (n : Nat) (s : State) : restaged (getMbx s n) (getMbx (transmit n s) n) := by
  unfold transmit
  split
  · exact restaged_refl _
  · dsimp only
    split
    · exact restaged_refl _
    · rw [getMbx_sendTo, getMbx_setMbx_self]
      cases e : (getMbx s n).replies with
      | nil => simp [restaged, e]
      | cons x r => simp [restaged, e, shown]

theorem restage_restaged (n : Nat) (s : State) : restaged (getMbx s n) (getMbx (restage n s) n) := by
  unfold restage; dsimp only
  split
  · rename_i r rs ev e
    split
    · exact restaged_refl _
    · refine restaged_trans ?_ (transmit_restaged n _)
      rw [getMbx_setMbx_self]; simp [restaged, e, shown]
  · rename_i ev es e1 e2
    split
    · exact restaged_refl _
    · refine restaged_trans ?_ (transmit_restaged n _)
      rw [getMbx_setMbx_self]; simp [restaged, e1]
  · exact restaged_refl _

/-! What the operations of the mailboxes leave. -/

theorem emit_leaves (o : NetOut) (s : State) : leaves [.net] s (emit o s) := leaves_ite (leaves_refl _ s) (put_net s _)

theorem sendOwn_leaves (p : Nat) (m : OwnMsg) (s : State) : leaves [.net] s (sendOwn p m s) := by
  unfold sendOwn; dsimp only
  exact leaves_ite (leaves_refl _ s) (leaves_ite (leaves_ite (emit_leaves _ _) (leaves_refl _ s))
    (leaves_ite (put_net s _) (leaves_refl _ s)))

theorem sendTo_leaves (src : Source) (n : Nat) (b : List Byte) (s : State) : leaves [.net] s (sendTo src n b s) := by
  unfold sendTo
  cases src with
  | spit => exact leaves_refl _ s
  | udp q ip sp => exact leaves_ite (sendOwn_leaves _ _ _) (leaves_refl _ s)
  | can c k => exact leaves_ite (emit_leaves _ _) (leaves_refl _ s)

theorem transmit_leaves (n : Nat) (s : State) : leaves [.mbx, .net] s (transmit n s) := by
  unfold transmit; split
  · exact leaves_refl _ s
  · exact leaves_ite (leaves_refl _ s) (leaves_chain (put_mbx s _) (sendTo_leaves _ _ _ _))

theorem restage_leaves (n : Nat) (s : State) : leaves [.mbx, .net] s (restage n s) := by
  unfold restage; dsimp only; split
  · exact leaves_ite (leaves_refl _ s) (leaves_chain (put_mbx s _) (transmit_leaves _ _))
  · exact leaves_ite (leaves_refl _ s) (leaves_chain (put_mbx s _) (transmit_leaves _ _))
  · exact leaves_refl _ s

theorem pushReply_leaves (n id c d : Nat) (p : List Byte) (s : State) : leaves [.mbx, .net] s (pushReply n id c d p s) := by
  unfold pushReply; dsimp only; split
  · exact leaves_refl _ s
  · exact leaves_ite (leaves_wider (put_mbx s _)) (leaves_chain (put_mbx s _) (restage_leaves _ _))

theorem pushEvent_leaves (n c a b : Nat) (s : State) : leaves [.mbx, .net] s (pushEvent n c a b s) := by
  unfold pushEvent
  exact leaves_ite (leaves_wider (put_mbx s _)) (leaves_chain (put_mbx s _) (restage_leaves _ _))

theorem setIrq_leaves (i : Nat) (s : State) : leaves [.flags] s (setIrq i s) := put_flags s _

theorem hostEvent_leaves (c a b : Nat) (s : State) : leaves [.mbx, .net, .flags] s (hostEvent c a b s) := by
  unfold hostEvent; dsimp only
  refine leaves_chain (l := [.flags]) ?_ (leaves_forAll (fun n s => pushEvent_leaves n c a b s) _ _)
  split
  · exact setIrq_leaves _ _
  · exact leaves_refl _ s

theorem fnLost_leaves (n f k : Nat) (s : State) : leaves [.mbx, .net, .flags] s (fnLost n f k s) := by
  unfold fnLost; dsimp only
  have key : ∀ x : State, leaves [.mbx, .net] x (if (getSess x n).events.toNat.testBit 4 then pushEvent n 4 f k x else x) := by
    intro x; exact leaves_ite (pushEvent_leaves _ _ _ _ _) (leaves_refl _ x)
  refine leaves_chain (l := [.flags]) ?_ (key _)
  exact leaves_ite (setIrq_leaves _ _) (leaves_refl _ s)

/-- What a meaning does enters only through the state that it gives. -/
theorem after_congr {t : Nat} {f : State → State} {s x : State} (h : f (atTime t s) = x) : after t f s = after t (fun _ => x) s := by
  unfold after; dsimp only; rw [h]

theorem getMbx_takeTurn (n j : Nat) (s : State) : getMbx (takeTurn n s) j = getMbx s j := rfl

theorem getMbx_begun (t n : Nat) (e : Entry) (s : State) :
    getMbx (begun t n e s) n = { getMbx s n with
      queue := (getMbx s n).queue.map fun y => if y.id = e.id then { y with st := .begun } else y } := getMbx_setMbx_self _ _ _

theorem getMbx_begun_other {t n j : Nat} (e : Entry) (s : State) (h : j ≠ n) : getMbx (begun t n e s) j = getMbx s j :=
  getMbx_setMbx_other _ _ h

theorem find_begun (q : List Entry) (e : Entry) (h : e ∈ q) :
    ∃ y, q.find? (fun y => y.id == e.id) = some y ∧
      (q.map fun y => if y.id = e.id then { y with st := EntrySt.begun } else y).find? (fun z => z.id == e.id && decide (z.st ≠ .ended))
        = some { y with st := .begun } := by
  induction q with
  | nil => cases h
  | cons x q ih =>
    by_cases c : x.id = e.id
    · exact ⟨x, by simp [c], by simp [c]⟩
    · have h' : e ∈ q := by
        rcases List.mem_cons.mp h with d | d
        · exact absurd (congrArg Entry.id d.symm) c
        · exact d
      obtain ⟨y, h1, h2⟩ := ih h'
      refine ⟨y, by simp [c, h1], ?_⟩
      simp only [List.map_cons, c, if_false, List.find?_cons]
      have : (x.id == e.id) = false := by simpa using c
      rw [this]; exact h2

/-- The reply of a command that has begun. -/
theorem pushReply_begun {t n c d : Nat} {e : Entry} {p : List Byte} {s s2 : State} (he : e ∈ (getMbx s n).queue)
    (hq : (getMbx s2 n).queue = (getMbx (begun t n e s) n).queue)
    (hr : (getMbx s2 n).replies.map shown = (getMbx s n).replies.map shown) :
    replied s (pushReply n e.id c d p s2) n e c d p := by
  obtain ⟨y, hy, hf⟩ := find_begun _ e he
  rw [getMbx_begun] at hq
  have ha : answeredBy s n e = y := by unfold answeredBy; rw [hy]; rfl
  have hf' : (getMbx s2 n).queue.find? (fun z => z.id == e.id && decide (z.st ≠ .ended)) = some { y with st := .begun } := by
    rw [hq]; exact hf
  have hm1 : ((getMbx s n).queue.map fun y => if y.id = e.id then { y with st := EntrySt.begun } else y).filter (fun z => decide (z.id ≠ e.id))
      = (getMbx s n).queue.filter (fun z => decide (z.id ≠ e.id)) := by
    induction (getMbx s n).queue with
    | nil => rfl
    | cons x q ih =>
      by_cases c : x.id = e.id
      · simpa [c] using ih
      · simpa [c] using ih
  have hm2 : ((getMbx s n).queue.map fun y => if y.id = e.id then { y with st := EntrySt.begun } else y).map
      (fun y => if y.id = e.id then { y with st := EntrySt.ended } else y)
      = (getMbx s n).queue.map fun y => if y.id = e.id then { y with st := EntrySt.ended } else y := by
    rw [List.map_map]
    refine List.map_congr_left fun x _ => ?_
    by_cases c : x.id = e.id
    · simp [c]
    · simp [c]
  unfold replied pushReply
  dsimp only
  rw [ha, hf']
  dsimp only
  by_cases cc : y.flags % 2 = 1 ∧ c = 0
  · rw [if_pos cc]
    have c1 : ((y.flags % 2 == 1 && c == 0) = true) := by simp [cc.1, cc.2]
    rw [if_pos c1, getMbx_setMbx_self]
    exact ⟨hr, by rw [hq]; exact hm1⟩
  · rw [if_neg cc]
    have c1 : ¬ ((y.flags % 2 == 1 && c == 0) = true) := by simpa using cc
    rw [if_neg c1]
    obtain ⟨h1, h2, -⟩ := restage_restaged n (setMbx n { getMbx s2 n with
      queue := (getMbx s2 n).queue.map (fun y => if y.id = e.id then { y with st := .ended } else y)
      replies := (getMbx s2 n).replies ++ [Item.mk e.id y.opcode y.tag c d p false 0] } s2)
    rw [getMbx_setMbx_self] at h1 h2
    refine ⟨h1.trans ?_, h2.trans ?_⟩
    · rw [List.map_append, hr]; rfl
    · rw [hq]; exact hm2

theorem pushReply_mailKept {t n c d : Nat} {e : Entry} {p : List Byte} {s s2 : State} (h : s2.mbx = (begun t n e s).mbx) :
    mailKept s (pushReply n e.id c d p s2) n := by
  have h0 : ∀ j, getMbx s2 j = getMbx (begun t n e s) j := fun j => by unfold getMbx; rw [h]
  refine ⟨fun j hj => ?_, ?_⟩
  · rw [show getMbx (pushReply n e.id c d p s2) j = getMbx s2 j from ?_, h0, getMbx_begun_other e s hj]
    unfold pushReply; dsimp only; split
    · rfl
    · split
      · exact getMbx_setMbx_other _ _ hj
      · rw [getMbx_restage_other hj, getMbx_setMbx_other _ _ hj]
  · have key : ∀ m : Mailbox, m.slot = (getMbx s n).slot → m.bell = (getMbx s n).bell → m.events = (getMbx s n).events →
        m.lost = (getMbx s n).lost → m.evSeq = (getMbx s n).evSeq → m.slot = (getMbx s n).slot ∧ m.bell = (getMbx s n).bell
        ∧ m.events = (getMbx s n).events ∧ m.lost = (getMbx s n).lost ∧ m.evSeq = (getMbx s n).evSeq :=
      fun _ a b c d e => ⟨a, b, c, d, e⟩
    unfold pushReply; dsimp only
    split
    · rw [h0, getMbx_begun]; simp
    · split
      · rw [getMbx_setMbx_self, h0, getMbx_begun]; simp
      · rename_i y hy hn
        obtain ⟨-, -, h3, h4, h6, h7⟩ := restage_restaged n (setMbx n { getMbx s2 n with
          queue := (getMbx s2 n).queue.map (fun y => if y.id = e.id then { y with st := .ended } else y)
          replies := (getMbx s2 n).replies ++ [Item.mk e.id y.opcode y.tag c d p false 0] } s2)
        rw [getMbx_setMbx_self] at h3 h4 h6 h7
        obtain ⟨h7, h5⟩ := h7 (by simp)
        have g : getMbx s2 n = _ := (h0 n).trans (getMbx_begun t n e s)
        refine key _ (h3.trans ?_) (h4.trans ?_) (h7.trans ?_) (h5.trans ?_) (h6.trans ?_)
        all_goals (dsimp only; rw [g])

theorem headEntry_mem {s : State} {n : Nat} {e : Entry} (h : headEntry s n = some e) : e ∈ (getMbx s n).queue :=
  List.mem_of_find?_eq_some h

/-- No waiting entry of a mailbox carries an unknown opcode. -/
def known (s : State) : Prop := ∀ j, ∀ y ∈ (getMbx s j).queue, y.st = .waiting → knownOpcode y.opcode = true

theorem unknownNext_none {s : State} (h : known s) : unknownNext s = none := by
  unfold unknownNext
  rw [List.findSome?_eq_none_iff]
  intro j _
  split
  · cases he : headEntry s j with
    | none => rfl
    | some e =>
      have hs : e.st = .waiting := by have := List.find?_some he; simpa using this
      simp [Option.filter, h j e (headEntry_mem he) hs]
  · rfl

theorem answerUnknown_none {s : State} (k : Nat) (h : known s) : answerUnknown k s = s := by
  cases k with
  | zero => rfl
  | succ k => unfold answerUnknown; rw [unknownNext_none h]

theorem wellPut_check {s : State} {t n : Nat} {e : Entry} {len : List Byte → Nat} {rsvd : List Byte → Bool} {priv : Nat}
    (h : wellPut s n e (len e.payload) rsvd priv) : generalCheck (begun t n e s) n e (len e.payload) rsvd priv = none := by
  obtain ⟨h1, h2, h3, h4, h5⟩ := h
  unfold generalCheck
  have a : ¬ ((decide (e.len > 56) || decide (e.len ≠ len e.payload)) = true) := by simp [h1]; omega
  have b : ¬ ((decide (e.flags / 2 ≠ 0) || !rsvd e.payload) = true) := by simp [h4]; omega
  have c : ¬ ((getSess (begun t n e s) n).priv.rank < priv) := by
    show ¬ ((getSess s n).priv.rank < priv); omega
  rw [if_neg a, if_neg b, if_neg c]

theorem runJhp_begins {t n op : Nat} {e : Entry} {s : State} {len : List Byte → Nat} {rsvd : List Byte → Bool} {priv : Nat}
    {body : Entry → State → Rep × State} (hi : inTurn s n op e) :
    runJhp n op len rsvd priv body (atTime t s) = answerUnknown 64
      (match generalCheck (begun t n e s) n e (len e.payload) rsvd priv with
        | some c => answer n e.id op c 0 (refusalPayload op e.payload) (begun t n e s)
        | none =>
          match body e (begun t n e s) with
          | (.later, s) => s
          | (.now c d p, s) => answer n e.id op c d p s) := by
  obtain ⟨h1, h2, h3, h4, h5, h6, -⟩ := hi
  unfold runJhp
  have e1 : headEntry (atTime t s) n = some e := h1
  rw [e1]
  have c1 : ¬ ((!(atTime t s).power.ready || !(getSess (atTime t s) n).isOpen || decide (e.opcode ≠ op) || !mayBegin (atTime t s) n || entryHeld (atTime t s) e) = true) := by
    have b : (getSess (atTime t s) n).isOpen = true := h4
    have m : mayBegin (atTime t s) n = true := h5
    have k : entryHeld (atTime t s) e = false := h6
    simp [h3, b, h2, m, k]
  dsimp only
  rw [if_neg c1]
  rfl

/-- The opcodes of a queue once an entry has been marked, whatever of it, as begun or ended. -/
theorem known_marked {q : List Entry} {id : Nat} {st : EntrySt} (hs : st ≠ .waiting)
    (h : ∀ y ∈ q, y.st = .waiting → knownOpcode y.opcode = true) :
    ∀ y ∈ (q.map fun y => if y.id = id then { y with st := st } else y), y.st = .waiting → knownOpcode y.opcode = true := by
  intro y hy hw
  obtain ⟨x, hx, rfl⟩ := List.mem_map.mp hy
  by_cases k : x.id = id
  · simp only [k, if_true] at hw; exact absurd hw hs
  · simp only [k, if_false] at hw ⊢
    exact h x hx hw

theorem known_begun {t n op : Nat} {e : Entry} {s : State} (hi : inTurn s n op e) : known (begun t n e s) := by
  have hk := hi.2.2.2.2.2.2
  intro j
  by_cases hj : j = n
  · subst hj
    rw [getMbx_begun]
    exact known_marked (by decide) (hk j)
  · rw [getMbx_begun_other e s hj]; exact hk j

theorem known_queue {s u : State} (hq : ∀ j, (getMbx u j).queue = (getMbx s j).queue) (h : known s) : known u := by
  intro j y hy; rw [hq] at hy; exact h j y hy

theorem known_congr {s u : State} (hm : u.mbx = s.mbx) (h : known s) : known u :=
  known_queue (fun j => by unfold getMbx; rw [hm]) h

theorem getMbx_pushReply_other {m j : Nat} (id c d : Nat) (p : List Byte) (s : State) (h : j ≠ m) :
    getMbx (pushReply m id c d p s) j = getMbx s j := by
  unfold pushReply; dsimp only
  split
  · rfl
  · split
    · exact getMbx_setMbx_other _ _ h
    · rw [getMbx_restage_other h, getMbx_setMbx_other _ _ h]

theorem known_pushReply (m id c d : Nat) (p : List Byte) {s : State} (h : known s) : known (pushReply m id c d p s) := by
  intro n
  by_cases hn : n = m
  · subst hn
    have h := h n
    unfold pushReply; dsimp only
    split
    · exact h
    · split
      · rw [getMbx_setMbx_self]
        intro y hy hs
        exact h y (List.mem_filter.mp hy).1 hs
      · obtain ⟨-, h2, -⟩ := restage_restaged n (setMbx n { getMbx s n with
          queue := (getMbx s n).queue.map (fun y => if y.id = id then { y with st := .ended } else y)
          replies := (getMbx s n).replies ++ [Item.mk id _ _ c d p false 0] } s)
        rw [h2, getMbx_setMbx_self]
        exact known_marked (by decide) h
  · rw [getMbx_pushReply_other _ _ _ _ _ hn]; exact h n

/-- A command whose own part answers nothing yet, as a whole. -/
theorem jhp_later {t n op : Nat} {e : Entry} {s s2 : State} {len : List Byte → Nat} {rsvd : List Byte → Bool}
    {priv : Nat} {body : Entry → State → Rep × State} (hi : inTurn s n op e) (hw : wellPut s n e (len e.payload) rsvd priv)
    (hb : body e (begun t n e s) = (.later, s2)) (hk : known s2) :
    act t (runJhp n op len rsvd priv body) s = .next (after t (fun _ => s2) s) := by
  have : runJhp n op len rsvd priv body (atTime t s) = s2 := by
    rw [runJhp_begins hi, wellPut_check hw]
    dsimp only
    rw [hb]
    exact answerUnknown_none 64 hk
  unfold act
  rw [after_congr this]

/-- A command that its own part answers at once, whatever else that part has put into the mailboxes. -/
theorem jhp_now {t n op c d : Nat} {e : Entry} {p : List Byte} {s s2 : State} {len : List Byte → Nat} {rsvd : List Byte → Bool}
    {priv : Nat} {body : Entry → State → Rep × State} (hi : inTurn s n op e) (hw : wellPut s n e (len e.payload) rsvd priv)
    (hb : body e (begun t n e s) = (.now c d p, s2)) (hv : isViolation c = false) (hk : known s2) :
    act t (runJhp n op len rsvd priv body) s = .next (after t (fun _ => pushReply n e.id c d p s2) s) := by
  have : runJhp n op len rsvd priv body (atTime t s) = pushReply n e.id c d p s2 := by
    rw [runJhp_begins hi, wellPut_check hw]
    dsimp only
    rw [hb]
    dsimp only
    unfold answer
    rw [hv]
    exact answerUnknown_none 64 (known_pushReply n e.id c d p hk)
  unfold act
  rw [after_congr this]

theorem getMbx_congr {s u : State} (h : u.mbx = s.mbx) (n : Nat) : getMbx u n = getMbx s n := by unfold getMbx; rw [h]

theorem entry_leaves (t n : Nat) (e : Entry) (s : State) : leaves [.mbx, .turn] (atTime t s) (begun t n e s) :=
  leaves_chain (put_mbx _ _) (put_turn _ _)

theorem begun_leaves (t n : Nat) (e : Entry) (s : State) : leaves [.clock, .mbx, .turn] s (begun t n e s) :=
  leaves_chain (leaves_atTime t s) (entry_leaves t n e s)

/-- What a reply at the end of a command leaves: the reply, and what the command's own part changed. -/
theorem jhp_leaves {t n c d : Nat} {e : Entry} {p : List Byte} {s s2 : State} {l : List StatePart} (he : e ∈ (getMbx s n).queue)
    (hq : (getMbx s2 n).queue = (getMbx (begun t n e s) n).queue)
    (hr : (getMbx s2 n).replies.map shown = (getMbx s n).replies.map shown)
    (hl : leaves l (begun t n e s) s2) (hp : StatePart.power ∉ l) :
    replied s (after t (fun _ => pushReply n e.id c d p s2) s) n e c d p
    ∧ (after t (fun _ => pushReply n e.id c d p s2) s).mbx = (pushReply n e.id c d p s2).mbx
    ∧ changesOnly (.mbx :: .net :: .turn :: l) t s (after t (fun _ => pushReply n e.id c d p s2) s) := by
  have hpw : s2.power = s.power := hl .power hp
  have hw : (pushReply n e.id c d p s2).power = s.power := (pushReply_leaves n e.id c d p s2 .power (by decide)).trans hpw
  have hm : (after t (fun _ => pushReply n e.id c d p s2) s).mbx = (pushReply n e.id c d p s2).mbx :=
    after_mbx_same t (fun _ => pushReply n e.id c d p s2) s (fun x => by rw [hw] at x; exact x)
  refine ⟨?_, hm, ?_⟩
  · have := pushReply_begun (c := c) (d := d) (p := p) he hq hr
    unfold replied at this ⊢
    rw [getMbx_congr hm]; exact this
  · refine changesOnly_of_leaves ?_ ?_
    · have h1 : leaves (.mbx :: .net :: .turn :: l) (atTime t s) (begun t n e s) := leaves_mono (entry_leaves t n e s) (by simp)
      have h2 : leaves (.mbx :: .net :: .turn :: l) (begun t n e s) s2 := leaves_mono hl (fun q h => by simp [h])
      have h3 : leaves (.mbx :: .net :: .turn :: l) s2 (pushReply n e.id c d p s2) :=
        leaves_mono (pushReply_leaves n e.id c d p s2) (fun q h => by revert h; cases q <;> simp)
      exact leaves_trans (leaves_trans h1 h2) h3
    · simp only [List.mem_cons, not_or]; exact ⟨by decide, by decide, by decide, hp⟩

theorem mailKept_congr {s u v : State} {n : Nat} (h : mailKept s u n) (hm : v.mbx = u.mbx) : mailKept s v n := by
  unfold mailKept at h ⊢
  simp only [getMbx_congr hm]; exact h

/-- A command completes when its own part answers OK at once and leaves the mailboxes to its reply. -/
theorem completes_of_len {c : Instr} {t n op len : Nat} {rsvd : List Byte → Bool} {priv : Nat} {guard : Entry → State → Prop}
    {pay : Entry → State → List Byte} {l : List StatePart} {eff : Entry → State → State → Prop} {lenf : List Byte → Nat}
    {body : Entry → State → Rep × State} (fin : Entry → State → State)
    (hc : ∀ s, exec c s = act t (runJhp n op lenf rsvd priv body) s) (hlen : ∀ e s, guard e (begun t n e s) → lenf e.payload = len)
    (hb : ∀ e s, guard e (begun t n e s) → body e (begun t n e s) = (.now 0 0 (pay e (begun t n e s)), fin e (begun t n e s)))
    (hl : ∀ e s, guard e (begun t n e s) → leaves l (begun t n e s) (fin e (begun t n e s)))
    (hp : StatePart.power ∉ l) (hm : StatePart.mbx ∉ l)
    (he : ∀ e s, guard e (begun t n e s) → ∀ u, u = after t (fun _ => pushReply n e.id 0 0 (pay e (begun t n e s)) (fin e (begun t n e s))) s →
      eff e (begun t n e s) u) :
    completes c t n op len rsvd priv guard pay l eff := by
  intro e s hi hw hg
  have hq : (fin e (begun t n e s)).mbx = (begun t n e s).mbx := hl e s hg .mbx hm
  have h0 : getMbx (fin e (begun t n e s)) n = getMbx (begun t n e s) n := getMbx_congr hq n
  have hr : (getMbx (fin e (begun t n e s)) n).replies.map shown = (getMbx s n).replies.map shown := by rw [h0, getMbx_begun]
  refine ⟨_, (hc s).trans (jhp_now hi (by rw [hlen e s hg]; exact hw) (hb e s hg) rfl (known_congr hq (known_begun hi))), ?_⟩
  obtain ⟨h1, h2, h3⟩ := jhp_leaves (c := 0) (d := 0) (p := pay e (begun t n e s)) (headEntry_mem hi.1) (by rw [h0]) hr (hl e s hg) hp
  exact ⟨h1, mailKept_congr (pushReply_mailKept hq) h2, h3, he e s hg _ rfl⟩

/-- The same for a command whose length is fixed. -/
theorem completes_of {c : Instr} {t n op len : Nat} {rsvd : List Byte → Bool} {priv : Nat} {guard : Entry → State → Prop}
    {pay : Entry → State → List Byte} {l : List StatePart} {eff : Entry → State → State → Prop} {lenf : List Byte → Nat}
    {body : Entry → State → Rep × State} (fin : Entry → State → State)
    (hc : ∀ s, exec c s = act t (runJhp n op lenf rsvd priv body) s) (hlen : ∀ p, lenf p = len)
    (hb : ∀ e s, guard e (begun t n e s) → body e (begun t n e s) = (.now 0 0 (pay e (begun t n e s)), fin e (begun t n e s)))
    (hl : ∀ e s, guard e (begun t n e s) → leaves l (begun t n e s) (fin e (begun t n e s)))
    (hp : StatePart.power ∉ l) (hm : StatePart.mbx ∉ l)
    (he : ∀ e s, guard e (begun t n e s) → ∀ u, u = after t (fun _ => pushReply n e.id 0 0 (pay e (begun t n e s)) (fin e (begun t n e s))) s →
      eff e (begun t n e s) u) :
    completes c t n op len rsvd priv guard pay l eff :=
  completes_of_len fin hc (fun e _ _ => hlen e.payload) hb hl hp hm he

/-- A command answers later when its own part says so and leaves the mailboxes. -/
theorem defers_of_len {c : Instr} {t n op len : Nat} {rsvd : List Byte → Bool} {priv : Nat} {guard : Entry → State → Prop}
    {l : List StatePart} {eff : Entry → State → State → Prop} {lenf : List Byte → Nat}
    {body : Entry → State → Rep × State} (fin : Entry → State → State)
    (hc : ∀ s, exec c s = act t (runJhp n op lenf rsvd priv body) s) (hlen : ∀ e s, guard e (begun t n e s) → lenf e.payload = len)
    (hb : ∀ e s, guard e (begun t n e s) → body e (begun t n e s) = (.later, fin e (begun t n e s)))
    (hl : ∀ e s, guard e (begun t n e s) → leaves l (begun t n e s) (fin e (begun t n e s)))
    (hp : StatePart.power ∉ l) (hm : StatePart.mbx ∉ l)
    (he : ∀ e s, guard e (begun t n e s) → ∀ u, u = after t (fun _ => fin e (begun t n e s)) s → eff e (begun t n e s) u) :
    defers c t n op len rsvd priv guard l eff := by
  intro e s hi hw hg
  have hq : (fin e (begun t n e s)).mbx = (begun t n e s).mbx := hl e s hg .mbx hm
  have hx : runJhp n op lenf rsvd priv body (atTime t s) = fin e (begun t n e s) := by
    rw [runJhp_begins hi, wellPut_check (by rw [hlen e s hg]; exact hw)]
    dsimp only
    rw [hb e s hg]
    dsimp only
    exact answerUnknown_none 64 (known_congr hq (known_begun hi))
  have hu : after t (runJhp n op lenf rsvd priv body) s = after t (fun _ => fin e (begun t n e s)) s := after_congr hx
  have hl' : leaves (.mbx :: .turn :: l) (atTime t s) (fin e (begun t n e s)) :=
    leaves_trans (leaves_mono (entry_leaves t n e s) (by simp)) (leaves_mono (hl e s hg) (fun q h => by simp [h]))
  have hpw : (fin e (begun t n e s)).power = s.power := hl e s hg .power hp
  refine ⟨_, (hc s).trans (by unfold act; rw [hu]), fun j => ?_, ?_, he e s hg _ rfl⟩
  · have : (after t (fun _ => fin e (begun t n e s)) s).mbx = (fin e (begun t n e s)).mbx :=
      after_mbx_same t (fun _ => fin e (begun t n e s)) s (fun x => by rw [hpw] at x; exact x)
    rw [getMbx_congr this, getMbx_congr hq]
  · exact changesOnly_of_leaves hl' (by simp only [List.mem_cons, not_or]; exact ⟨by decide, by decide, hp⟩)

/-- The same for a command whose length is fixed. -/
theorem defers_of {c : Instr} {t n op len : Nat} {rsvd : List Byte → Bool} {priv : Nat} {guard : Entry → State → Prop}
    {l : List StatePart} {eff : Entry → State → State → Prop} {lenf : List Byte → Nat}
    {body : Entry → State → Rep × State} (fin : Entry → State → State)
    (hc : ∀ s, exec c s = act t (runJhp n op lenf rsvd priv body) s) (hlen : ∀ p, lenf p = len)
    (hb : ∀ e s, guard e (begun t n e s) → body e (begun t n e s) = (.later, fin e (begun t n e s)))
    (hl : ∀ e s, guard e (begun t n e s) → leaves l (begun t n e s) (fin e (begun t n e s)))
    (hp : StatePart.power ∉ l) (hm : StatePart.mbx ∉ l)
    (he : ∀ e s, guard e (begun t n e s) → ∀ u, u = after t (fun _ => fin e (begun t n e s)) s → eff e (begun t n e s) u) :
    defers c t n op len rsvd priv guard l eff :=
  defers_of_len fin hc (fun e _ _ => hlen e.payload) hb hl hp hm he

/-- A part of the next state that replies and settling do not write, as the command's own part left it. -/
theorem jhp_part {β : Type} (r : State → β) (t n c d : Nat) (e : Entry) (p : List Byte) (s s2 : State)
    (ha : ∀ f : State → State, r (after t f s) = r (f (atTime t s))) (hm : NoMbx r) (hn : NoNet r) :
    r (after t (fun _ => pushReply n e.id c d p s2) s) = r s2 :=
  (ha _).trans (pushReply_keeps r hm hn n e.id c d p s2)

/-! Part by part, what a reply at the end of a command leaves of its own part. -/

variable {t n c d : Nat} {e : Entry} {p : List Byte} {s s2 u : State} (h : u = after t (fun _ => pushReply n e.id c d p s2) s)

include h

theorem reply_free : u.free = s2.free := by
  subst h; exact jhp_part (·.free) t n c d e p s s2 (fun f => after_free t f s) (fun _ _ => rfl) (fun _ _ => rfl)
theorem reply_links : u.links = s2.links := by
  subst h; exact jhp_part (·.links) t n c d e p s s2 (fun f => after_links t f s) (fun _ _ => rfl) (fun _ _ => rfl)
theorem reply_sheds : u.sheds = s2.sheds := by
  subst h; exact jhp_part (·.sheds) t n c d e p s s2 (fun f => after_sheds t f s) (fun _ _ => rfl) (fun _ _ => rfl)
theorem reply_sess : u.sess = s2.sess := by
  subst h; exact jhp_part (·.sess) t n c d e p s s2 (fun f => after_sess t f s) (fun _ _ => rfl) (fun _ _ => rfl)
theorem reply_win : u.win = s2.win := by
  subst h; exact jhp_part (·.win) t n c d e p s s2 (fun f => after_win t f s) (fun _ _ => rfl) (fun _ _ => rfl)
theorem reply_pat : u.pat = s2.pat := by
  subst h; exact jhp_part (·.pat) t n c d e p s s2 (fun f => after_pat t f s) (fun _ _ => rfl) (fun _ _ => rfl)
theorem reply_diag : u.diag = s2.diag := by
  subst h; exact jhp_part (·.diag) t n c d e p s s2 (fun f => after_diag t f s) (fun _ _ => rfl) (fun _ _ => rfl)
theorem reply_lt : u.lt = s2.lt := by
  subst h; exact jhp_part (·.lt) t n c d e p s s2 (fun f => after_lt t f s) (fun _ _ => rfl) (fun _ _ => rfl)
theorem reply_therm : u.therm = s2.therm := by
  subst h; exact jhp_part (·.therm) t n c d e p s s2 (fun f => after_therm t f s) (fun _ _ => rfl) (fun _ _ => rfl)
theorem reply_can : u.can = s2.can := by
  subst h; exact jhp_part (·.can) t n c d e p s s2 (fun f => after_can t f s) (fun _ _ => rfl) (fun _ _ => rfl)
theorem reply_spim : u.spim = s2.spim := by
  subst h; exact jhp_part (·.spim) t n c d e p s s2 (fun f => after_spim t f s) (fun _ _ => rfl) (fun _ _ => rfl)
theorem reply_xip : u.xip = s2.xip := by
  subst h; exact jhp_part (·.xip) t n c d e p s s2 (fun f => after_xip t f s) (fun _ _ => rfl) (fun _ _ => rfl)
theorem reply_pk : u.pk = s2.pk := by
  subst h; exact jhp_part (·.pk) t n c d e p s s2 (fun f => after_pk t f s) (fun _ _ => rfl) (fun _ _ => rfl)
theorem reply_log : u.log = s2.log := by
  subst h; exact jhp_part (·.log) t n c d e p s s2 (fun f => after_log t f s) (fun _ _ => rfl) (fun _ _ => rfl)
theorem reply_faults : u.faults = s2.faults := by
  subst h; exact jhp_part (·.faults) t n c d e p s s2 (fun f => after_faults t f s) (fun _ _ => rfl) (fun _ _ => rfl)
theorem reply_store : u.store = s2.store := by
  subst h; exact jhp_part (·.store) t n c d e p s s2 (fun f => after_store t f s) (fun _ _ => rfl) (fun _ _ => rfl)
theorem reply_marks : u.marks = s2.marks := by
  subst h; exact jhp_part (·.marks) t n c d e p s s2 (fun f => after_marks t f s) (fun _ _ => rfl) (fun _ _ => rfl)
theorem reply_turn : u.turn = s2.turn := by
  subst h; exact jhp_part (·.turn) t n c d e p s s2 (fun f => after_turn t f s) (fun _ _ => rfl) (fun _ _ => rfl)
theorem reply_authFails : u.authFails = s2.authFails := by
  subst h; exact jhp_part (·.authFails) t n c d e p s s2 (fun f => after_authFails t f s) (fun _ _ => rfl) (fun _ _ => rfl)
theorem reply_nextEntry : u.nextEntry = s2.nextEntry := by
  subst h; exact jhp_part (·.nextEntry) t n c d e p s s2 (fun f => after_nextEntry t f s) (fun _ _ => rfl) (fun _ _ => rfl)

variable (hw : s2.power.mode = .run → s.power.mode = .run)

include hw

theorem reply_regs : u.regs = s2.regs := by
  subst h
  have k := pushReply_keeps (·.regs) (fun _ _ => rfl) (fun _ _ => rfl) n e.id c d p s2
  exact (after_regs_same t _ s (fun x => hw ((pushReply_keeps (·.power.mode) (fun _ _ => rfl) (fun _ _ => rfl) n e.id c d p s2).symm.trans x))).trans k
theorem reply_fns : u.fns = s2.fns := by
  subst h
  have k := pushReply_keeps (·.fns) (fun _ _ => rfl) (fun _ _ => rfl) n e.id c d p s2
  exact (after_fns_same t _ s (fun x => hw ((pushReply_keeps (·.power.mode) (fun _ _ => rfl) (fun _ _ => rfl) n e.id c d p s2).symm.trans x))).trans k

theorem reply_mbx : u.mbx = (pushReply n e.id c d p s2).mbx := by
  subst h
  exact after_mbx_same t _ s (fun x => hw ((pushReply_keeps (·.power.mode) (fun _ _ => rfl) (fun _ _ => rfl) n e.id c d p s2).symm.trans x))
theorem reply_net : u.net = (pushReply n e.id c d p s2).net := by
  subst h
  exact after_net_same t _ s (fun x => hw ((pushReply_keeps (·.power.mode) (fun _ _ => rfl) (fun _ _ => rfl) n e.id c d p s2).symm.trans x))
theorem reply_scene {β : Type} (q : Scene → β) (h1 : ∀ w x, q { w with heldSince := x } = q w) : q u.scene = q s2.scene := by
  subst h
  have k := pushReply_keeps (fun s => q s.scene) (fun _ _ => rfl) (fun _ _ => rfl) n e.id c d p s2
  exact (after_scene_same t _ s q h1 (fun x => hw ((pushReply_keeps (·.power.mode) (fun _ _ => rfl) (fun _ _ => rfl) n e.id c d p s2).symm.trans x))).trans k
theorem reply_front {β : Type} (q : Front → β) (h1 : ∀ w x, q { w with irqFlags := x } = q w) : q u.front = q s2.front := by
  subst h
  have k := pushReply_keeps (fun s => q s.front) (fun _ _ => rfl) (fun _ _ => rfl) n e.id c d p s2
  exact (after_front_same t _ s q h1 (fun x => hw ((pushReply_keeps (·.power.mode) (fun _ _ => rfl) (fun _ _ => rfl) n e.id c d p s2).symm.trans x))).trans k

omit hw

theorem reply_power {β : Type} (q : Power → β) (h1 : ∀ w x, q { w with failLevel := x } = q w) (h2 : ∀ w x, q { w with idleSince := x } = q w) :
    q u.power = q s2.power := by
  subst h
  exact (after_power t _ s q h1 h2).trans (pushReply_keeps (fun s => q s.power) (fun _ _ => rfl) (fun _ _ => rfl) n e.id c d p s2)

end Sys2Proof.Machine
end

