-- ==== Sys2Proof/Laws/PerInstr.lean ====
section
/-! SUPPORT. Every shed that a command names is one of SHED_0 to SHED_6 (00, Table 0.1), command by command. -/

namespace Sys2Proof.Laws.ShedIndex

open Sys2Proof

/-- A shed that the command names has an index below 7. -/
def Statement (i : Instr) : Prop := ∀ k, i.shedOf = some k → k < 7

theorem absent {i : Instr} (h : i.shedOf = none) : Statement i := fun k hk => by rw [h] at hk; exact absurd hk (by simp)

theorem named {i : Instr} (j : Fin 7) (h : i.shedOf = some j.val) : Statement i := fun k hk => by
  rw [h] at hk; injection hk with e; omega

theorem ofDie {i : Instr} (d : Fin 8) (h : i.shedOf = if d.val = 0 then none else some (d.val - 1)) : Statement i := fun k hk => by
  rw [h] at hk; split at hk
  · exact absurd hk (by simp)
  · injection hk with e; omega

theorem markWordSend : ∀ x0 x1, Statement (.markWordSend x0 x1) := fun _ _ => absent rfl
theorem yardFrameMark : ∀ x0, Statement (.yardFrameMark x0) := fun _ => absent rfl
theorem mark : ∀ x0 x1 x2 x3 x4, Statement (.mark x0 x1 x2 x3 x4) := fun _ k _ _ _ => named k rfl
theorem shedMarkFire : ∀ x0 x1, Statement (.shedMarkFire x0 x1) := fun _ m => named m.shed rfl
theorem freeRunMark : ∀ x0 x1, Statement (.freeRunMark x0 x1) := fun _ k => named k rfl
theorem greyClockLock : ∀ x0 x1, Statement (.greyClockLock x0 x1) := fun _ k => named k rfl
theorem linkLatencyCalibration : ∀ x0 x1 x2, Statement (.linkLatencyCalibration x0 x1 x2) := fun _ k _ => named k rfl
theorem linkTrained : ∀ x0 x1 x2 x3, Statement (.linkTrained x0 x1 x2 x3) := fun _ k _ _ => named k rfl
theorem linkTrainAttempt : ∀ x0 x1, Statement (.linkTrainAttempt x0 x1) := fun _ k => named k rfl
theorem write : ∀ x0 x1 x2 x3, Statement (.write x0 x1 x2 x3) := fun _ k _ _ => named k rfl
theorem readReq : ∀ x0 x1 x2 x3, Statement (.readReq x0 x1 x2 x3) := fun _ k _ _ => named k rfl
theorem readData : ∀ x0 x1 x2 x3, Statement (.readData x0 x1 x2 x3) := fun _ k _ _ => named k rfl
theorem prepare : ∀ x0 x1 x2 x3, Statement (.prepare x0 x1 x2 x3) := fun _ k _ _ => named k rfl
theorem prepareOk : ∀ x0 x1 x2 x3, Statement (.prepareOk x0 x1 x2 x3) := fun _ k _ _ => named k rfl
theorem prepareFail : ∀ x0 x1 x2 x3, Statement (.prepareFail x0 x1 x2 x3) := fun _ k _ _ => named k rfl
theorem frameStatus : ∀ x0 x1 x2 x3, Statement (.frameStatus x0 x1 x2 x3) := fun _ k _ _ => named k rfl
theorem event : ∀ x0 x1 x2 x3, Statement (.event x0 x1 x2 x3) := fun _ k _ _ => named k rfl
theorem commit : ∀ x0 x1 x2 x3, Statement (.commit x0 x1 x2 x3) := fun _ k _ _ => named k rfl
theorem abort : ∀ x0 x1 x2 x3, Statement (.abort x0 x1 x2 x3) := fun _ k _ _ => named k rfl
theorem patCtl : ∀ x0 x1 x2 x3, Statement (.patCtl x0 x1 x2 x3) := fun _ k _ _ => named k rfl
theorem derate : ∀ x0 x1 x2 x3, Statement (.derate x0 x1 x2 x3) := fun _ k _ _ => named k rfl
theorem failOff : ∀ x0 x1 x2 x3, Statement (.failOff x0 x1 x2 x3) := fun _ k _ _ => named k rfl
theorem govern : ∀ x0 x1 x2 x3, Statement (.govern x0 x1 x2 x3) := fun _ k _ _ => named k rfl
theorem round : ∀ x0 x1 x2 x3, Statement (.round x0 x1 x2 x3) := fun _ k _ _ => named k rfl
theorem fallback : ∀ x0 x1 x2 x3, Statement (.fallback x0 x1 x2 x3) := fun _ k _ _ => named k rfl
theorem inject : ∀ x0 x1 x2 x3, Statement (.inject x0 x1 x2 x3) := fun _ k _ _ => named k rfl
theorem ack : ∀ x0 x1 x2 x3 x4, Statement (.ack x0 x1 x2 x3 x4) := fun _ k _ _ _ => named k rfl
theorem nak : ∀ x0 x1 x2 x3 x4, Statement (.nak x0 x1 x2 x3 x4) := fun _ k _ _ _ => named k rfl
theorem heartbeat : ∀ x0 x1 x2 x3, Statement (.heartbeat x0 x1 x2 x3) := fun _ k _ _ => named k rfl
theorem idleWord : ∀ x0 x1 x2 x3, Statement (.idleWord x0 x1 x2 x3) := fun _ k _ _ => named k rfl
theorem heartbeatSend : ∀ x0 x1 x2, Statement (.heartbeatSend x0 x1 x2) := fun _ k _ => named k rfl
theorem heartbeatTimeout : ∀ x0 x1 x2, Statement (.heartbeatTimeout x0 x1 x2) := fun _ k _ => named k rfl
theorem retryTimeout : ∀ x0 x1 x2, Statement (.retryTimeout x0 x1 x2) := fun _ k _ => named k rfl
theorem pwmPeriodEnd : ∀ x0 x1 x2, Statement (.pwmPeriodEnd x0 x1 x2) := fun _ k _ => named k rfl
theorem trimDropout : ∀ x0 x1 x2, Statement (.trimDropout x0 x1 x2) := fun _ k _ => named k rfl
theorem placementStart : ∀ x0 x1, Statement (.placementStart x0 x1) := fun _ k => named k rfl
theorem placerDone : ∀ x0 x1 x2 x3, Statement (.placerDone x0 x1 x2 x3) := fun _ k _ _ => named k rfl
theorem placerDeadline : ∀ x0 x1, Statement (.placerDeadline x0 x1) := fun _ k => named k rfl
theorem spreadToLevel : ∀ x0 x1 x2, Statement (.spreadToLevel x0 x1 x2) := fun _ k _ => named k rfl
theorem sinkOvervoltage : ∀ x0 x1 x2 x3, Statement (.sinkOvervoltage x0 x1 x2 x3) := fun _ k _ _ => named k rfl
theorem scanOvercurrentTrip : ∀ x0 x1 x2, Statement (.scanOvercurrentTrip x0 x1 x2) := fun _ k _ => named k rfl
theorem boosterOvercurrent : ∀ x0 x1 x2, Statement (.boosterOvercurrent x0 x1 x2) := fun _ k _ => named k rfl
theorem debounceComplete : ∀ x0 x1 x2, Statement (.debounceComplete x0 x1 x2) := fun _ k _ => named k rfl
theorem freshnessExpiry : ∀ x0 x1 x2 x3, Statement (.freshnessExpiry x0 x1 x2 x3) := fun _ k _ _ => named k rfl
theorem probeDebtDrop : ∀ x0 x1 x2, Statement (.probeDebtDrop x0 x1 x2) := fun _ k _ => named k rfl
theorem keyframeEnd : ∀ x0 x1 x2, Statement (.keyframeEnd x0 x1 x2) := fun _ k _ => named k rfl
theorem phaseDelayEnd : ∀ x0 x1 x2, Statement (.phaseDelayEnd x0 x1 x2) := fun _ k _ => named k rfl
theorem fadeEnd : ∀ x0 x1 x2, Statement (.fadeEnd x0 x1 x2) := fun _ k _ => named k rfl
theorem engineCheckpoint : ∀ x0 x1, Statement (.engineCheckpoint x0 x1) := fun _ k => named k rfl
theorem shedRoundComplete : ∀ x0 x1 x2, Statement (.shedRoundComplete x0 x1 x2) := fun _ k _ => named k rfl
theorem retestEvaluation : ∀ x0, Statement (.retestEvaluation x0) := fun _ => absent rfl
theorem ltCalCaptureEnd : ∀ x0, Statement (.ltCalCaptureEnd x0) := fun _ => absent rfl
theorem housekeepingRound : ∀ x0, Statement (.housekeepingRound x0) := fun _ => absent rfl
theorem nvDeferredWrite : ∀ x0, Statement (.nvDeferredWrite x0) := fun _ => absent rfl
theorem armedRecordRewrite : ∀ x0, Statement (.armedRecordRewrite x0) := fun _ => absent rfl
theorem overtempTrip : ∀ x0 x1, Statement (.overtempTrip x0 x1) := fun _ d => ofDie d rfl
theorem deferredHotWrite : ∀ x0, Statement (.deferredHotWrite x0) := fun _ => absent rfl
theorem hotRecordVerify : ∀ x0 x1 x2, Statement (.hotRecordVerify x0 x1 x2) := fun _ _ _ => absent rfl
theorem verdictMapPublish : ∀ x0, Statement (.verdictMapPublish x0) := fun _ => absent rfl
theorem functionStateTableUpdate : ∀ x0, Statement (.functionStateTableUpdate x0) := fun _ => absent rfl
theorem deviceStatusPageUpdate : ∀ x0, Statement (.deviceStatusPageUpdate x0) := fun _ => absent rfl
theorem commitRoundStart : ∀ x0, Statement (.commitRoundStart x0) := fun _ => absent rfl
theorem commitTimeout : ∀ x0, Statement (.commitTimeout x0) := fun _ => absent rfl
theorem supplyValid : ∀ x0, Statement (.supplyValid x0) := fun _ => absent rfl
theorem crystalStable : ∀ x0, Statement (.crystalStable x0) := fun _ => absent rfl
theorem pwrEnStartup : ∀ x0, Statement (.pwrEnStartup x0) := fun _ => absent rfl
theorem stableLoadRetry : ∀ x0, Statement (.stableLoadRetry x0) := fun _ => absent rfl
theorem firmwareStart : ∀ x0, Statement (.firmwareStart x0) := fun _ => absent rfl
theorem powerOnReset : ∀ x0, Statement (.powerOnReset x0) := fun _ => absent rfl
theorem railBrownout : ∀ x0, Statement (.railBrownout x0) := fun _ => absent rfl
theorem resetNAssert : ∀ x0 x1, Statement (.resetNAssert x0 x1) := fun _ _ => absent rfl
theorem resetNRelease : ∀ x0, Statement (.resetNRelease x0) := fun _ => absent rfl
theorem watchdogExpiry : ∀ x0, Statement (.watchdogExpiry x0) := fun _ => absent rfl
theorem powerFailDetected : ∀ x0, Statement (.powerFailDetected x0) := fun _ => absent rfl
theorem powerFailFlushDone : ∀ x0, Statement (.powerFailFlushDone x0) := fun _ => absent rfl
theorem vbatReturn : ∀ x0 x1, Statement (.vbatReturn x0 x1) := fun _ _ => absent rfl
theorem dipResume : ∀ x0, Statement (.dipResume x0) := fun _ => absent rfl
theorem nwIdleTimeout : ∀ x0, Statement (.nwIdleTimeout x0) := fun _ => absent rfl
theorem nwFlushDone : ∀ x0, Statement (.nwFlushDone x0) := fun _ => absent rfl
theorem wakePinEvent : ∀ x0 x1, Statement (.wakePinEvent x0 x1) := fun _ _ => absent rfl
theorem linkEnergyDetected : ∀ x0, Statement (.linkEnergyDetected x0) := fun _ => absent rfl
theorem wakeTimerExpiry : ∀ x0, Statement (.wakeTimerExpiry x0) := fun _ => absent rfl
theorem wakeFrame : ∀ x0 x1, Statement (.wakeFrame x0 x1) := fun _ _ => absent rfl
theorem wakeFrameWindowExpiry : ∀ x0, Statement (.wakeFrameWindowExpiry x0) := fun _ => absent rfl
theorem pwrEnWakeRise : ∀ x0, Statement (.pwrEnWakeRise x0) := fun _ => absent rfl
theorem sessionOpen : ∀ x0 x1, Statement (.sessionOpen x0 x1) := fun _ _ => absent rfl
theorem sessionClose : ∀ x0 x1, Statement (.sessionClose x0 x1) := fun _ _ => absent rfl
theorem sessionKeepalive : ∀ x0 x1, Statement (.sessionKeepalive x0 x1) := fun _ _ => absent rfl
theorem sessionChallenge : ∀ x0 x1, Statement (.sessionChallenge x0 x1) := fun _ _ => absent rfl
theorem sessionAuth : ∀ x0 x1, Statement (.sessionAuth x0 x1) := fun _ _ => absent rfl
theorem sessionDrop : ∀ x0 x1, Statement (.sessionDrop x0 x1) := fun _ _ => absent rfl
theorem sessionEvents : ∀ x0 x1, Statement (.sessionEvents x0 x1) := fun _ _ => absent rfl
theorem sessionInfo : ∀ x0 x1, Statement (.sessionInfo x0 x1) := fun _ _ => absent rfl
theorem pageTake : ∀ x0 x1, Statement (.pageTake x0 x1) := fun _ _ => absent rfl
theorem pageRelease : ∀ x0 x1, Statement (.pageRelease x0 x1) := fun _ _ => absent rfl
theorem pageLock : ∀ x0 x1, Statement (.pageLock x0 x1) := fun _ _ => absent rfl
theorem pageUnlock : ∀ x0 x1, Statement (.pageUnlock x0 x1) := fun _ _ => absent rfl
theorem fnAcquire : ∀ x0 x1, Statement (.fnAcquire x0 x1) := fun _ _ => absent rfl
theorem fnRelease : ∀ x0 x1, Statement (.fnRelease x0 x1) := fun _ _ => absent rfl
theorem leaseExpiry : ∀ x0 x1, Statement (.leaseExpiry x0 x1) := fun _ _ => absent rfl
theorem doorbellRing : ∀ x0 x1, Statement (.doorbellRing x0 x1) := fun _ _ => absent rfl
theorem doorbellPendingCopy : ∀ x0 x1, Statement (.doorbellPendingCopy x0 x1) := fun _ _ => absent rfl
theorem replyAcknowledge : ∀ x0 x1, Statement (.replyAcknowledge x0 x1) := fun _ _ => absent rfl
theorem winDataWrite : ∀ x0 x1, Statement (.winDataWrite x0 x1) := fun _ _ => absent rfl
theorem winDataRead : ∀ x0, Statement (.winDataRead x0) := fun _ => absent rfl
theorem frontRegisterWrite : ∀ x0 x1 x2, Statement (.frontRegisterWrite x0 x1 x2) := fun _ _ _ => absent rfl
theorem spitStatus : ∀ x0 x1 x2, Statement (.spitStatus x0 x1 x2) := fun _ _ _ => absent rfl
theorem regRead : ∀ x0 x1 x2, Statement (.regRead x0 x1 x2) := fun _ _ _ => absent rfl
theorem regWrite : ∀ x0 x1 x2, Statement (.regWrite x0 x1 x2) := fun _ _ _ => absent rfl
theorem mbxWrite : ∀ x0 x1 x2, Statement (.mbxWrite x0 x1 x2) := fun _ _ _ => absent rfl
theorem mbxRead : ∀ x0 x1 x2, Statement (.mbxRead x0 x1 x2) := fun _ _ _ => absent rfl
theorem winWrite : ∀ x0 x1 x2, Statement (.winWrite x0 x1 x2) := fun _ _ _ => absent rfl
theorem winRead : ∀ x0 x1 x2, Statement (.winRead x0 x1 x2) := fun _ _ _ => absent rfl
theorem spitRefusedType : ∀ x0 x1 x2, Statement (.spitRefusedType x0 x1 x2) := fun _ _ _ => absent rfl
theorem ethernetFrame : ∀ x0 x1, Statement (.ethernetFrame x0 x1) := fun _ _ => absent rfl
theorem learnedEntryAgeOut : ∀ x0 x1 x2, Statement (.learnedEntryAgeOut x0 x1 x2) := fun _ _ _ => absent rfl
theorem t1LinkUp : ∀ x0, Statement (.t1LinkUp x0) := fun _ => absent rfl
theorem t1LinkDown : ∀ x0, Statement (.t1LinkDown x0) := fun _ => absent rfl
theorem plcaCycle : ∀ x0, Statement (.plcaCycle x0) := fun _ => absent rfl
theorem nodePresenceTimeout : ∀ x0 x1, Statement (.nodePresenceTimeout x0 x1) := fun _ _ => absent rfl
theorem arpRequest : ∀ x0 x1, Statement (.arpRequest x0 x1) := fun _ _ => absent rfl
theorem icmpEchoRequest : ∀ x0 x1, Statement (.icmpEchoRequest x0 x1) := fun _ _ => absent rfl
theorem jhpCommandDatagram : ∀ x0 x1, Statement (.jhpCommandDatagram x0 x1) := fun _ _ => absent rfl
theorem jhpAckDatagram : ∀ x0 x1, Statement (.jhpAckDatagram x0 x1) := fun _ _ => absent rfl
theorem replyResend : ∀ x0 x1, Statement (.replyResend x0 x1) := fun _ _ => absent rfl
theorem windowWriteDatagram : ∀ x0 x1, Statement (.windowWriteDatagram x0 x1) := fun _ _ => absent rfl
theorem windowReadDatagram : ∀ x0 x1, Statement (.windowReadDatagram x0 x1) := fun _ _ => absent rfl
theorem windowReadDelayedCopy : ∀ x0, Statement (.windowReadDelayedCopy x0) := fun _ => absent rfl
theorem canJhpCommandFrame : ∀ x0 x1 x2, Statement (.canJhpCommandFrame x0 x1 x2) := fun _ _ _ => absent rfl
theorem canJhpAckFrame : ∀ x0 x1 x2, Statement (.canJhpAckFrame x0 x1 x2) := fun _ _ _ => absent rfl
theorem canReplyResend : ∀ x0 x1, Statement (.canReplyResend x0 x1) := fun _ _ => absent rfl
theorem canDataFrame : ∀ x0 x1 x2, Statement (.canDataFrame x0 x1 x2) := fun _ _ _ => absent rfl
theorem canBusOff : ∀ x0 x1 x2, Statement (.canBusOff x0 x1 x2) := fun _ _ _ => absent rfl
theorem canBusOffRecovered : ∀ x0 x1, Statement (.canBusOffRecovered x0 x1) := fun _ _ => absent rfl
theorem canErrPassive : ∀ x0 x1 x2 x3, Statement (.canErrPassive x0 x1 x2 x3) := fun _ _ _ _ => absent rfl
theorem canValueTimeout : ∀ x0 x1 x2, Statement (.canValueTimeout x0 x1 x2) := fun _ _ _ => absent rfl
theorem canStatusTx : ∀ x0 x1 x2, Statement (.canStatusTx x0 x1 x2) := fun _ _ _ => absent rfl
theorem canMapLoad : ∀ x0 x1, Statement (.canMapLoad x0 x1) := fun _ _ => absent rfl
theorem canRestart : ∀ x0 x1, Statement (.canRestart x0 x1) := fun _ _ => absent rfl
theorem spimConfig : ∀ x0 x1, Statement (.spimConfig x0 x1) := fun _ _ => absent rfl
theorem spimXfer : ∀ x0 x1 x2, Statement (.spimXfer x0 x1 x2) := fun _ _ _ => absent rfl
theorem spimXferPage : ∀ x0 x1 x2, Statement (.spimXferPage x0 x1 x2) := fun _ _ _ => absent rfl
theorem spimReset : ∀ x0 x1, Statement (.spimReset x0 x1) := fun _ _ => absent rfl
theorem spimStatus : ∀ x0 x1, Statement (.spimStatus x0 x1) := fun _ _ => absent rfl
theorem xipConfig : ∀ x0 x1, Statement (.xipConfig x0 x1) := fun _ _ => absent rfl
theorem spimXipCopy : ∀ x0 x1 x2, Statement (.spimXipCopy x0 x1 x2) := fun _ _ _ => absent rfl
theorem spimTransferDone : ∀ x0 x1, Statement (.spimTransferDone x0 x1) := fun _ _ => absent rfl
theorem spimHoldTimeout : ∀ x0 x1, Statement (.spimHoldTimeout x0 x1) := fun _ _ => absent rfl
theorem xipCopyDone : ∀ x0, Statement (.xipCopyDone x0) := fun _ => absent rfl
theorem nop : ∀ x0 x1, Statement (.nop x0 x1) := fun _ _ => absent rfl
theorem br : ∀ x0 x1 x2, Statement (.br x0 x1 x2) := fun _ _ _ => absent rfl
theorem hold : ∀ x0 x1 x2, Statement (.hold x0 x1 x2) := fun _ _ _ => absent rfl
theorem sho : ∀ x0 x1, Statement (.sho x0 x1) := fun _ _ => absent rfl
theorem shi : ∀ x0 x1 x2, Statement (.shi x0 x1 x2) := fun _ _ _ => absent rfl
theorem lvl : ∀ x0 x1, Statement (.lvl x0 x1) := fun _ _ => absent rfl
theorem dir : ∀ x0 x1, Statement (.dir x0 x1) := fun _ _ => absent rfl
theorem ld : ∀ x0 x1 x2, Statement (.ld x0 x1 x2) := fun _ _ _ => absent rfl
theorem give : ∀ x0 x1, Statement (.give x0 x1) := fun _ _ => absent rfl
theorem take : ∀ x0 x1, Statement (.take x0 x1) := fun _ _ => absent rfl
theorem flag : ∀ x0 x1, Statement (.flag x0 x1) := fun _ _ => absent rfl
theorem paddockEventAccept : ∀ x0 x1, Statement (.paddockEventAccept x0 x1) := fun _ _ => absent rfl
theorem pkTxQueueMove : ∀ x0 x1, Statement (.pkTxQueueMove x0 x1) := fun _ _ => absent rfl
theorem pkRxQueueMove : ∀ x0 x1, Statement (.pkRxQueueMove x0 x1) := fun _ _ => absent rfl
theorem pkLoad : ∀ x0 x1, Statement (.pkLoad x0 x1) := fun _ _ => absent rfl
theorem pkStore : ∀ x0 x1, Statement (.pkStore x0 x1) := fun _ _ => absent rfl
theorem pkPinConfig : ∀ x0 x1, Statement (.pkPinConfig x0 x1) := fun _ _ => absent rfl
theorem pkStart : ∀ x0 x1, Statement (.pkStart x0 x1) := fun _ _ => absent rfl
theorem pkStop : ∀ x0 x1, Statement (.pkStop x0 x1) := fun _ _ => absent rfl
theorem pkReset : ∀ x0 x1, Statement (.pkReset x0 x1) := fun _ _ => absent rfl
theorem pkPush : ∀ x0 x1, Statement (.pkPush x0 x1) := fun _ _ => absent rfl
theorem pkPull : ∀ x0 x1, Statement (.pkPull x0 x1) := fun _ _ => absent rfl
theorem pkStatus : ∀ x0 x1, Statement (.pkStatus x0 x1) := fun _ _ => absent rfl
theorem sceneCommit : ∀ x0 x1, Statement (.sceneCommit x0 x1) := fun _ _ => absent rfl
theorem sceneRecall : ∀ x0 x1, Statement (.sceneRecall x0 x1) := fun _ _ => absent rfl
theorem sceneReadback : ∀ x0 x1, Statement (.sceneReadback x0 x1) := fun _ _ => absent rfl
theorem sceneStore : ∀ x0 x1, Statement (.sceneStore x0 x1) := fun _ _ => absent rfl
theorem patLoad : ∀ x0 x1, Statement (.patLoad x0 x1) := fun _ _ => absent rfl
theorem patStart : ∀ x0 x1, Statement (.patStart x0 x1) := fun _ _ => absent rfl
theorem patStop : ∀ x0 x1, Statement (.patStop x0 x1) := fun _ _ => absent rfl
theorem patTrigger : ∀ x0 x1, Statement (.patTrigger x0 x1) := fun _ _ => absent rfl
theorem patReset : ∀ x0 x1, Statement (.patReset x0 x1) := fun _ _ => absent rfl
theorem patStatus : ∀ x0 x1, Statement (.patStatus x0 x1) := fun _ _ => absent rfl
theorem fnClear : ∀ x0 x1, Statement (.fnClear x0 x1) := fun _ _ => absent rfl
theorem ltRead : ∀ x0 x1, Statement (.ltRead x0 x1) := fun _ _ => absent rfl
theorem ltCalCapture : ∀ x0 x1, Statement (.ltCalCapture x0 x1) := fun _ _ => absent rfl
theorem ltCalStatus : ∀ x0 x1, Statement (.ltCalStatus x0 x1) := fun _ _ => absent rfl
theorem ltCalCommit : ∀ x0 x1, Statement (.ltCalCommit x0 x1) := fun _ _ => absent rfl
theorem ltCalWrite : ∀ x0 x1, Statement (.ltCalWrite x0 x1) := fun _ _ => absent rfl
theorem thermClear : ∀ x0 x1, Statement (.thermClear x0 x1) := fun _ _ => absent rfl
theorem nwEnter : ∀ x0 x1, Statement (.nwEnter x0 x1) := fun _ _ => absent rfl
theorem logCursor : ∀ x0 x1, Statement (.logCursor x0 x1) := fun _ _ => absent rfl
theorem logFetch : ∀ x0 x1, Statement (.logFetch x0 x1) := fun _ _ => absent rfl
theorem logFlush : ∀ x0 x1, Statement (.logFlush x0 x1) := fun _ _ => absent rfl
theorem logClear : ∀ x0 x1, Statement (.logClear x0 x1) := fun _ _ => absent rfl
theorem logSetWall : ∀ x0 x1, Statement (.logSetWall x0 x1) := fun _ _ => absent rfl
theorem logRateSet : ∀ x0 x1, Statement (.logRateSet x0 x1) := fun _ _ => absent rfl
theorem tackFetch : ∀ x0 x1, Statement (.tackFetch x0 x1) := fun _ _ => absent rfl
theorem lampReset : ∀ x0 x1, Statement (.lampReset x0 x1) := fun _ _ => absent rfl
theorem logFlushPeriodic : ∀ x0, Statement (.logFlushPeriodic x0) := fun _ => absent rfl
theorem logFlushUrgent : ∀ x0, Statement (.logFlushUrgent x0) := fun _ => absent rfl
theorem tackSnapshotWrite : ∀ x0, Statement (.tackSnapshotWrite x0) := fun _ => absent rfl
theorem accountingSave : ∀ x0, Statement (.accountingSave x0) := fun _ => absent rfl
theorem operatingSecond : ∀ x0, Statement (.operatingSecond x0) := fun _ => absent rfl
theorem nvItemWrite : ∀ x0 x1, Statement (.nvItemWrite x0 x1) := fun _ _ => absent rfl
theorem fwStatus : ∀ x0 x1, Statement (.fwStatus x0 x1) := fun _ _ => absent rfl
theorem fwInstallBegin : ∀ x0 x1, Statement (.fwInstallBegin x0 x1) := fun _ _ => absent rfl
theorem fwInstallWrite : ∀ x0 x1, Statement (.fwInstallWrite x0 x1) := fun _ _ => absent rfl
theorem fwInstallFinish : ∀ x0 x1, Statement (.fwInstallFinish x0 x1) := fun _ _ => absent rfl
theorem fwInstallAbort : ∀ x0 x1, Statement (.fwInstallAbort x0 x1) := fun _ _ => absent rfl
theorem fwActivate : ∀ x0 x1, Statement (.fwActivate x0 x1) := fun _ _ => absent rfl
theorem fwSvnRaise : ∀ x0 x1, Statement (.fwSvnRaise x0 x1) := fun _ _ => absent rfl
theorem cfgRead : ∀ x0 x1, Statement (.cfgRead x0 x1) := fun _ _ => absent rfl
theorem cfgWrite : ∀ x0 x1, Statement (.cfgWrite x0 x1) := fun _ _ => absent rfl
theorem cfgSave : ∀ x0 x1, Statement (.cfgSave x0 x1) := fun _ _ => absent rfl
theorem idRead : ∀ x0 x1, Statement (.idRead x0 x1) := fun _ _ => absent rfl
theorem keyNonce : ∀ x0 x1, Statement (.keyNonce x0 x1) := fun _ _ => absent rfl
theorem keySet : ∀ x0 x1, Statement (.keySet x0 x1) := fun _ _ => absent rfl
theorem keyStatus : ∀ x0 x1, Statement (.keyStatus x0 x1) := fun _ _ => absent rfl
theorem warmReset : ∀ x0 x1, Statement (.warmReset x0 x1) := fun _ _ => absent rfl
theorem shedReset : ∀ x0 x1, Statement (.shedReset x0 x1) := fun _ _ => absent rfl
theorem portReset : ∀ x0 x1, Statement (.portReset x0 x1) := fun _ _ => absent rfl
theorem faultStatus : ∀ x0 x1, Statement (.faultStatus x0 x1) := fun _ _ => absent rfl
theorem faultClear : ∀ x0 x1, Statement (.faultClear x0 x1) := fun _ _ => absent rfl
theorem faultInject : ∀ x0 x1, Statement (.faultInject x0 x1) := fun _ _ => absent rfl
theorem linkStatus : ∀ x0 x1, Statement (.linkStatus x0 x1) := fun _ _ => absent rfl
theorem faultRaise : ∀ x0 x1 x2, Statement (.faultRaise x0 x1 x2) := fun _ _ d => ofDie d rfl
theorem resetShadowEnd : ∀ x0 x1, Statement (.resetShadowEnd x0 x1) := fun _ b => by cases b <;> first | exact absent rfl | exact named _ rfl
theorem injectionTimeout : ∀ x0, Statement (.injectionTimeout x0) := fun _ => absent rfl
theorem scrubPass : ∀ x0 x1 x2 x3, Statement (.scrubPass x0 x1 x2 x3) := fun _ m _ _ => by cases m <;> first | exact absent rfl | exact named _ rfl
theorem sramTestWordRead : ∀ x0, Statement (.sramTestWordRead x0) := fun _ => absent rfl
theorem cryptoSelfTestDone : ∀ x0 x1, Statement (.cryptoSelfTestDone x0 x1) := fun _ _ => absent rfl
theorem spitPartialCommandByte : ∀ x0 x1, Statement (.spitPartialCommandByte x0 x1) := fun _ _ => absent rfl
theorem wakePinInactive : ∀ x0 x1, Statement (.wakePinInactive x0 x1) := fun _ _ => absent rfl
theorem nwOscillatorInBand : ∀ x0, Statement (.nwOscillatorInBand x0) := fun _ => absent rfl
theorem yardRoundConversionsComplete : ∀ x0 x1, Statement (.yardRoundConversionsComplete x0 x1) := fun _ _ => absent rfl

end Sys2Proof.Laws.ShedIndex
end

