-- ==== Sys2Proof/Laws/Regs.lean ====
section
/-! SUPPORT. Laws of the register file: what a register and a field read after a write. -/

namespace Sys2Proof.Machine

open Sys2Proof

/-- The bits of a register after a write of a field. -/
theorem Word.testBit_withFld (w : Word) (hi lo v i : Nat) (hl : lo ≤ hi) (hi' : i < 32) :
    (Word.withFld w hi lo v).toNat.testBit i = if lo ≤ i ∧ i ≤ hi then v.testBit (i - lo) else w.toNat.testBit i := by
  have e : w.toNat % 2 ^ lo + (v % 2 ^ (hi + 1 - lo)) * 2 ^ lo + (w.toNat >>> (hi + 1)) * 2 ^ (hi + 1)
      = 2 ^ lo * (2 ^ (hi + 1 - lo) * (w.toNat >>> (hi + 1)) + v % 2 ^ (hi + 1 - lo)) + w.toNat % 2 ^ lo := by
    have : 2 ^ (hi + 1) = 2 ^ lo * 2 ^ (hi + 1 - lo) := by rw [← Nat.pow_add]; congr 1; omega
    rw [this, Nat.mul_add, Nat.mul_comm (v % _), Nat.mul_comm (w.toNat >>> _), Nat.mul_assoc]
    omega
  unfold Word.withFld
  rw [BitVec.toNat_ofNat, Nat.testBit_mod_two_pow, e, Nat.testBit_two_pow_mul_add _ (Nat.mod_lt _ (Nat.two_pow_pos lo))]
  simp only [hi', decide_true, Bool.true_and]
  by_cases h : i < lo
  · rw [if_pos h, if_neg (by omega), Nat.testBit_mod_two_pow]; simp [h]
  · rw [if_neg h, Nat.testBit_two_pow_mul_add _ (Nat.mod_lt _ (Nat.two_pow_pos _))]
    by_cases h2 : i ≤ hi
    · rw [if_pos (by omega), if_pos ⟨by omega, h2⟩, Nat.testBit_mod_two_pow]
      simp; omega
    · rw [if_neg (by omega), if_neg (by omega), Nat.testBit_shiftRight]
      congr 1; omega

/-- A field reads what was written into it, cut to its width. -/
theorem Word.fld_withFld (w : Word) (hi lo v : Nat) (hl : lo ≤ hi) (hh : hi < 32) :
    (Word.withFld w hi lo v).fld hi lo = v % 2 ^ (hi + 1 - lo) := by
  unfold Word.fld
  apply Nat.eq_of_testBit_eq
  intro i
  rw [Nat.testBit_mod_two_pow, Nat.testBit_mod_two_pow, Nat.testBit_shiftRight]
  by_cases h : i < hi + 1 - lo
  · rw [Word.testBit_withFld w hi lo v (lo + i) hl (by omega), if_pos (by omega)]
    simp [h]
  · simp [h]

/-- The other fields read as before. -/
theorem Word.fld_withFld_other (w : Word) (hi lo v a b : Nat) (hl : lo ≤ hi) (ha : a < 32) (h : a < lo ∨ hi < b) :
    (Word.withFld w hi lo v).fld a b = w.fld a b := by
  unfold Word.fld
  apply Nat.eq_of_testBit_eq
  intro i
  rw [Nat.testBit_mod_two_pow, Nat.testBit_mod_two_pow, Nat.testBit_shiftRight, Nat.testBit_shiftRight]
  by_cases hi' : i < a + 1 - b
  · rw [Word.testBit_withFld w hi lo v (b + i) hl (by omega), if_neg (by omega)]
  · simp [hi']

/-- A field reads what `setRegf` stored. -/
theorem regf_setRegf (a n hi lo v : Nat) (s : State) (hl : lo ≤ hi) (hh : hi < 32) :
    regf (setRegf a n hi lo v s) a n hi lo = v % 2 ^ (hi + 1 - lo) := by
  unfold regf setRegf
  rw [reg_setReg_self, Word.fld_withFld _ _ _ _ hl hh]

/-- The other fields of the register read as before. -/
theorem regf_setRegf_field (a n hi lo v x y : Nat) (s : State) (hl : lo ≤ hi) (hx : x < 32) (h : x < lo ∨ hi < y) :
    regf (setRegf a n hi lo v s) a n x y = regf s a n x y := by
  unfold regf setRegf
  rw [reg_setReg_self, Word.fld_withFld_other _ _ _ _ _ _ hl hx h]

/-- The other registers read as before. -/
theorem regf_setRegf_other {a n j m : Nat} (h : regKey j m ≠ regKey a n) (hi lo v x y : Nat) (s : State) :
    regf (setRegf a n hi lo v s) j m x y = regf s j m x y := by
  unfold regf setRegf
  rw [reg_setReg_other _ _ h]

/-- A counter counts and stops at its largest value. -/
theorem regf_bumpReg (a n hi lo : Nat) (s : State) (hl : lo ≤ hi) (hh : hi < 32) :
    regf (bumpReg a n hi lo s) a n hi lo = min (regf s a n hi lo + 1) (2 ^ (hi + 1 - lo) - 1) := by
  unfold bumpReg
  rw [regf_setRegf _ _ _ _ _ _ hl hh]
  have := Nat.two_pow_pos (hi + 1 - lo)
  exact Nat.mod_eq_of_lt (by omega)

end Sys2Proof.Machine
end

