-- ==== Sys2Proof/Laws/Shared.lean ====
section
/-! SUPPORT. What the operations that many commands share can change: records, pages, functions, registers. -/

namespace Sys2Proof.Machine

-- One declaration after another: side by side they need a thread each, with its own stack.
set_option Elab.async false

open Sys2Proof

theorem setReg_leaves (die n : Nat) (w : Word) (s : State) : leaves [.regs] s (setReg die n w s) := put_regs s _
theorem setSess_leaves (n : Nat) (x : Session) (s : State) : leaves [.sess] s (setSess n x s) := put_sess s _
theorem updSess_leaves (n : Nat) (f : Session → Session) (s : State) : leaves [.sess] s (updSess n f s) := put_sess s _
theorem setMbx_leaves (n : Nat) (m : Mailbox) (s : State) : leaves [.mbx] s (setMbx n m s) := put_mbx s _
theorem setFn_leaves (n : Nat) (x : FnDrive) (s : State) : leaves [.fns] s (setFn n x s) := put_fns s _
theorem updFn_leaves (n : Nat) (f : FnDrive → FnDrive) (s : State) : leaves [.fns] s (updFn n f s) := put_fns s _
theorem setShed_leaves (n : Nat) (x : Shed) (s : State) : leaves [.sheds] s (setShed n x s) := put_sheds s _
theorem updShed_leaves (n : Nat) (f : Shed → Shed) (s : State) : leaves [.sheds] s (updShed n f s) := put_sheds s _
theorem setLink_leaves (n : Nat) (x : Link) (s : State) : leaves [.links] s (setLink n x s) := put_links s _
theorem updLink_leaves (n : Nat) (f : Link → Link) (s : State) : leaves [.links] s (updLink n f s) := put_links s _
theorem setCan_leaves (n : Nat) (x : Can) (s : State) : leaves [.can] s (setCan n x s) := put_can s _
theorem setSpim_leaves (n : Nat) (x : Spim) (s : State) : leaves [.spim] s (setSpim n x s) := put_spim s _
theorem setLane_leaves (n : Nat) (x : Lane) (s : State) : leaves [.pk] s (setLane n x s) := put_pk s _
theorem setPk_leaves (n : Nat) (x : PkEngine) (s : State) : leaves [.pk] s (setPk n x s) := put_pk s _
theorem setDet_leaves (n : Nat) (x : Det) (s : State) : leaves [.faults] s (setDet n x s) := put_faults s _

theorem getSess_congr {s u : State} (h : u.sess = s.sess) (n : Nat) : getSess u n = getSess s n := by unfold getSess; rw [h]
theorem getOwn_congr {s u : State} (h : u.win = s.win) (n : Nat) : getOwn u n = getOwn s n := by unfold getOwn; rw [h]
theorem getFn_congr {s u : State} (h : u.fns = s.fns) (n : Nat) : getFn u n = getFn s n := by unfold getFn; rw [h]
theorem getSess_updSess_self (n : Nat) (f : Session → Session) (s : State) : getSess (updSess n f s) n = f (getSess s n) := Table.get_put_self _ _ _ _
theorem getSess_updSess_other {n j : Nat} (h : j ≠ n) (f : Session → Session) (s : State) : getSess (updSess n f s) j = getSess s j :=
  Table.get_put_other _ _ _ h
theorem getFn_updFn_self (n : Nat) (f : FnDrive → FnDrive) (s : State) : getFn (updFn n f s) n = f (getFn s n) := Table.get_put_self _ _ _ _
theorem getFn_updFn_other {n j : Nat} (h : j ≠ n) (f : FnDrive → FnDrive) (s : State) : getFn (updFn n f s) j = getFn s j :=
  Table.get_put_other _ _ _ h

/-! Records (14). -/

theorem setBucket_leaves (c : Nat) (b : Bucket) (s : State) : leaves [.log] s (setBucket c b s) := put_log s _

theorem countDrop_leaves (v : Nat) (s : State) : leaves [.log] s (countDrop v s) := put_log s _

theorem stage_leaves (r : LogRec) (s : State) : leaves [.log] s (stage r s) := by
  unfold stage; dsimp only
  refine leaves_ite (put_log s _) (leaves_ite (countDrop_leaves _ s) ?_)
  split
  · exact leaves_chain (put_log s _) (countDrop_leaves _ _)
  · exact countDrop_leaves _ s

theorem acceptRec_leaves (code sev die sess p1 p2 inc sup flags : Nat) (s : State) :
    leaves [.log] s (acceptRec code sev die sess p1 p2 inc sup flags s) :=
  leaves_chain (stage_leaves _ s) (put_log _ _)

theorem snapshot_leaves (r : LogRec) (b : List Byte) (s : State) : leaves [.log] s (snapshot r b s) :=
  leaves_ite (leaves_refl _ s) (put_log s _)

/-- A record writes the Logbook (R383, R384, R402). -/
theorem logFull_leaves (code sev die sess p1 p2 inc flags : Nat) (s : State) :
    leaves [.log] s (logFull code sev die sess p1 p2 inc flags s) := by
  unfold logFull; dsimp only
  refine leaves_ite (leaves_refl _ s) (leaves_ite ?_ (leaves_ite ?_ (setBucket_leaves _ _ s)))
  · exact leaves_chain (leaves_chain (k := [.log]) (acceptRec_leaves _ _ _ _ _ _ _ _ _ s) (setBucket_leaves _ _ _)) (snapshot_leaves _ _ _)
  · exact leaves_chain (acceptRec_leaves _ _ _ _ _ _ _ _ _ s) (setBucket_leaves _ _ _)

theorem logX_leaves (code sev die sess p1 p2 inc : Nat) (s : State) : leaves [.log] s (logX code sev die sess p1 p2 inc s) :=
  logFull_leaves _ _ _ _ _ _ _ _ s

theorem log_leaves (code sev p1 p2 : Nat) (s : State) : leaves [.log] s (log code sev p1 p2 s) := logFull_leaves _ _ _ _ _ _ _ _ s

theorem countDrop_log {s u : State} (v : Nat) (h : u.log = s.log) : (countDrop v u).log = (countDrop v s).log := by
  unfold countDrop; rw [h]

theorem stage_now (r : LogRec) (s : State) : (stage r s).now = s.now := by
  unfold stage; dsimp only
  repeat' split
  all_goals rfl

theorem stage_log {s u : State} (r : LogRec) (h : u.log = s.log) : (stage r u).log = (stage r s).log := by
  unfold stage
  simp only [h]
  repeat' split
  all_goals first | rfl | exact countDrop_log _ h

/-- What a record below CRITICAL depends on: the Logbook, the registers, the clock, and whether the firmware runs. -/
theorem logFull_log {s u : State} (code sev die sess p1 p2 inc flags : Nat) (hv : sev < 3) (h1 : u.log = s.log)
    (h2 : u.regs = s.regs) (h3 : u.power.fw = s.power.fw) (h4 : u.now = s.now) :
    (logFull code sev die sess p1 p2 inc flags u).log = (logFull code sev die sess p1 p2 inc flags s).log := by
  have hr : rateEntry u code = rateEntry s code := by unfold rateEntry reg; rw [h2]
  have hb : refill u code = refill s code := by unfold refill; rw [h1, h4, hr]
  have hl : logging u = logging s := h3
  have hs : ¬ sev ≥ 3 := by omega
  unfold logFull
  simp only [hl, hr, hb, hs, if_false]
  split
  · exact h1
  · split
    · simp only [setBucket, acceptRec, cycleFlags, h1, h4, stage_log _ h1, stage_now]
    · simp only [setBucket, h1]

/-- What a record leaves of the Logbook: all but the ring, the counters of acceptance, and the snapshots that wait. -/
def restOf (l : Log) : Log :=
  { l with ring := [], buckets := [], drops := [], nextSeq := 0, last8 := [], urgentAt := none, tackPend := [], tackCodes := [] }

theorem stage_rest (r : LogRec) (s : State) : restOf (stage r s).log = restOf s.log := by
  unfold stage; dsimp only
  repeat' split
  all_goals rfl

theorem acceptRec_rest (code sev die sess p1 p2 inc sup flags : Nat) (s : State) :
    restOf (acceptRec code sev die sess p1 p2 inc sup flags s).log = restOf s.log := stage_rest _ s

theorem snapshot_rest (r : LogRec) (b : List Byte) (s : State) : restOf (snapshot r b s).log = restOf s.log := by
  unfold snapshot; dsimp only; split <;> rfl

theorem logFull_rest (code sev die sess p1 p2 inc flags : Nat) (s : State) :
    restOf (logFull code sev die sess p1 p2 inc flags s).log = restOf s.log := by
  unfold logFull; dsimp only
  split
  · rfl
  · split
    · exact (snapshot_rest _ _ _).trans (acceptRec_rest _ _ _ _ _ _ _ _ _ s)
    · split
      · exact acceptRec_rest _ _ _ _ _ _ _ _ _ s
      · rfl

/-! Pages (10). -/

theorem setOwn_leaves (p : Nat) (o : PageOwn) (s : State) : leaves [.win] s (setOwn p o s) := put_win s _

theorem beginUpdate_leaves (p : Nat) (s : State) : leaves [.win] s (beginUpdate p s) := put_win s _

theorem changeOwner_leaves (p : Nat) (w : Owner) (n : Nat) (s : State) : leaves [.win] s (changeOwner p w n s) := by
  unfold changeOwner; dsimp only
  exact leaves_chain (leaves_chain (k := [.win]) (beginUpdate_leaves 1 s) (setOwn_leaves _ _ _)) (put_win _ _)

theorem setDirty_leaves (p : Nat) (s : State) : leaves [.win] s (setDirty p s) := by
  unfold setDirty; dsimp only
  exact leaves_ite (leaves_refl _ s)
    (leaves_chain (leaves_chain (k := [.win]) (beginUpdate_leaves 1 s) (setOwn_leaves _ _ _)) (put_win _ _))

theorem getOwn_setOwn_self (p : Nat) (o : PageOwn) (s : State) : getOwn (setOwn p o s) p = o := Table.get_put_self _ _ _ _
theorem getOwn_setOwn_other {p j : Nat} (h : j ≠ p) (o : PageOwn) (s : State) : getOwn (setOwn p o s) j = getOwn s j := Table.get_put_other _ _ _ h

/-- A page whose owner changes. -/
def pageOf (w : Owner) (n : Nat) (o : PageOwn) : PageOwn :=
  ⟨w, if w = .free then 0 else n, o.gen + 1, if w = .host then false else o.dirty, false⟩

/-- A change of owner changes that page's entry (R296). -/
theorem getOwn_changeOwner (p j : Nat) (w : Owner) (n : Nat) (s : State) :
    getOwn (changeOwner p w n s) j = if j = p then pageOf w n (getOwn s p) else getOwn s j := by
  show getOwn (setOwn p (pageOf w n (getOwn s p)) (beginUpdate 1 s)) j = _
  by_cases h : j = p
  · subst h; rw [if_pos rfl]; exact getOwn_setOwn_self _ _ _
  · rw [if_neg h]; exact getOwn_setOwn_other h _ _

/-- Changes of owner of distinct pages. -/
theorem getOwn_changeAll (w : Owner) (n : Nat) (l : List Nat) (hl : l.Nodup) (s : State) (j : Nat) :
    getOwn (forAll l (fun p s => changeOwner p w n s) s) j = if j ∈ l then pageOf w n (getOwn s j) else getOwn s j := by
  induction l generalizing s with
  | nil => rfl
  | cons a l ih =>
    obtain ⟨h1, h2⟩ := List.nodup_cons.mp hl
    show getOwn (forAll l _ (changeOwner a w n s)) j = _
    rw [ih h2, getOwn_changeOwner]
    by_cases c : j = a
    · subst c; simp [h1]
    · simp [c]

/-- Pages that a command takes. -/
theorem pagesToDevice_taken (n : Nat) (ps : List Nat) (s : State) : takenPages s (pagesToDevice n ps s) n ps := by
  induction ps generalizing s with
  | nil => exact ⟨by simp, fun _ _ => rfl⟩
  | cons a l ih =>
    obtain ⟨h1, h2⟩ := ih (changeOwner a .device n s)
    refine ⟨fun p hp => ?_, fun p hp => ?_⟩
    · by_cases c : p ∈ l
      · exact h1 p c
      · have e : p = a := by
          rcases List.mem_cons.mp hp with d | d
          · exact d
          · exact absurd d c
        have := h2 p c
        rw [getOwn_changeOwner, if_pos e] at this
        have e : getOwn (pagesToDevice n (a :: l) s) p = pageOf .device n (getOwn s a) := this
        rw [e]; exact ⟨rfl, rfl⟩
    · simp only [List.mem_cons, not_or] at hp
      have := h2 p hp.2
      rw [getOwn_changeOwner, if_neg hp.1] at this
      exact this

theorem storePage_leaves (p off : Nat) (b : List Byte) (s : State) : leaves [.win] s (storePage p off b s) := put_win s _

theorem devWrite_leaves (p : Nat) (b : List Byte) (s : State) : leaves [.win] s (devWrite p b s) :=
  leaves_chain (beginUpdate_leaves p s) (storePage_leaves _ _ _ _)

theorem pagesToDevice_leaves (n : Nat) (ps : List Nat) (s : State) : leaves [.win] s (pagesToDevice n ps s) :=
  leaves_forAll (fun p s => changeOwner_leaves p .device n s) ps s

theorem returnPages_leaves (n : Nat) (ps : List Nat) (s : State) : leaves [.win] s (returnPages n ps s) :=
  leaves_forAll (fun _ s => leaves_ite (leaves_ite (changeOwner_leaves _ _ _ s) (changeOwner_leaves _ _ _ s)) (leaves_refl _ s)) ps s

theorem fillHeld_leaves (n p off : Nat) (b : List Byte) (s : State) : leaves [.win] s (fillHeld n p off b s) :=
  leaves_chain (leaves_chain (k := [.win]) (pagesToDevice_leaves _ _ s) (storePage_leaves _ _ _ _)) (returnPages_leaves _ _ _)

/-! Functions (05, 10). -/

theorem lapseFn_leaves (f : Nat) (s : State) : leaves [.log, .fns, .scene] s (lapseFn f s) :=
  leaves_chain (leaves_chain (k := [.log, .fns]) (log_leaves _ _ _ _ s) (updFn_leaves _ _ _)) (put_scene _ _)

theorem holdFn_leaves (f : Nat) (h : Holder) (q : Nat) (s : State) : leaves [.fns, .scene] s (holdFn f h q s) :=
  leaves_chain (updFn_leaves _ _ s) (put_scene _ _)

theorem releaseFn_leaves (f : Nat) (s : State) : leaves [.log, .fns, .scene] s (releaseFn f s) := by
  unfold releaseFn
  split
  · exact leaves_ite (leaves_wider (holdFn_leaves _ _ _ s)) (leaves_chain (updFn_leaves _ _ s) (lapseFn_leaves _ _))
  · exact leaves_chain (updFn_leaves _ _ s) (lapseFn_leaves _ _)

/-! Die links (01). -/

theorem sendPkt_leaves (k : Nat) (y : Bool) (p : Packet) (s : State) : leaves [.links] s (sendPkt k y p s) :=
  leaves_ite (leaves_refl _ s) (updLink_leaves _ _ s)

theorem command_leaves (k : Nat) (c : Cmd) (s : State) : leaves [.links] s (command k c s) := sendPkt_leaves _ _ _ s

theorem writeWords_leaves (k : Nat) (ws : List (Nat × DWord)) (s : State) : leaves [.links] s (writeWords k ws s) := by
  unfold writeWords
  generalize runs ws = l
  exact leaves_forAll (l := [.links]) (fun (r : Nat × List DWord) s => sendPkt_leaves k true (.write r.1 r.2) s) l s

theorem sendWrites_leaves (k : Nat) (ws : List (Nat × DWord)) (s : State) : leaves [.links, .scene] s (sendWrites k ws s) :=
  leaves_ite (leaves_wider (put_scene s _)) (leaves_wider (writeWords_leaves _ _ s))

theorem sendFnState_leaves (f st : Nat) (m : Word) (s : State) : leaves [.links, .scene] s (sendFnState f st m s) :=
  leaves_forAll (fun k s => sendWrites_leaves k [(A.fnState + f, fnWord st m)] s) _ s

theorem sendPatCtl_leaves (k : Nat) (c : PatCtl) (s : State) : leaves [.links] s (sendPatCtl k c s) := by
  unfold sendPatCtl; dsimp only
  exact leaves_chain (updLink_leaves k _ s) (command_leaves k _ _)

theorem sendControl_leaves (g : Nat) (a : PatAct) (i : Bool) (m : Word) (s : State) : leaves [.pat, .links] s (sendControl g a i m s) :=
  leaves_ite (leaves_refl _ s) (leaves_ite (leaves_wider (put_pat s _)) (leaves_chain (put_pat s _) (sendPatCtl_leaves _ _ _)))

theorem sendControls_leaves (l : List Nat) (a : PatAct) (i : Bool) (m : Word) (s : State) : leaves [.pat, .links] s (sendControls l a i m s) :=
  leaves_forAll (fun g s => sendControl_leaves g a i m s) l s

theorem getShed_congr {s u : State} (h : u.sheds = s.sheds) (k : Nat) : getShed u k = getShed s k := by unfold getShed; rw [h]

/-- Controls of present engines are kept for rejoins, each in its turn (06, R193). -/
theorem sendControls_since (l : List Nat) (a : PatAct) (i : Bool) (m : Word) (s : State) (h : ∀ g ∈ l, isPresent s (g / 16) = true) :
    (sendControls l a i m s).pat.since = l.foldl (fun c g => keepControl g ⟨g % 16, a, i, m, 0⟩ c) s.pat.since := by
  induction l generalizing s with
  | nil => rfl
  | cons g l ih =>
    have hv : (sendControl g a i m s).variant = s.variant := sendControl_leaves g a i m s .variant (by decide)
    have h1 : (sendControl g a i m s).pat.since = keepControl g ⟨g % 16, a, i, m, 0⟩ s.pat.since := by
      have hk : ∀ x : State, ∀ c, (sendPatCtl (g / 16) c x).pat = x.pat := fun x c => sendPatCtl_leaves _ c x .pat (by decide)
      unfold sendControl
      rw [if_neg (by rw [h g (List.mem_cons_self ..)]; simp)]
      dsimp only
      split
      · rfl
      · rw [hk]
    show (sendControls l a i m (sendControl g a i m s)).pat.since = _
    rw [ih _ (fun g' hg => by unfold isPresent nSheds; rw [hv]; exact h g' (List.mem_cons_of_mem _ hg)), h1]
    rfl

/-! The entry to Run (02, Table 2.5; 11, R332). -/

theorem mapStep_leaves (a : State × List (Nat × Nat)) (q : Nat × Nat) : leaves [.fns, .scene] a.1 (mapStep a q).1 := by
  unfold mapStep; dsimp only
  split
  · split
    · split
      · exact holdFn_leaves _ _ _ _
      · exact leaves_refl _ _
    · exact leaves_wider (updFn_leaves _ _ _)
    · exact holdFn_leaves _ _ _ _
  · exact leaves_refl _ _

theorem mapRequest_leaves (s : State) : leaves [.fns, .scene] s (mapRequest s).1 := by
  unfold mapRequest
  generalize mapAll = l
  have key : ∀ a : State × List (Nat × Nat), leaves [.fns, .scene] a.1 (l.foldl mapStep a).1 := by
    induction l with
    | nil => intro a; exact leaves_refl _ _
    | cons q l ih => intro a; exact leaves_trans (mapStep_leaves a q) (ih _)
  exact key (s, [])

theorem mapTake_leaves (s : State) : leaves [.fns, .scene, .mbx, .net, .flags] s (mapTake s) := by
  unfold mapTake
  have h := mapRequest_leaves s
  generalize mapRequest s = r at h ⊢
  exact leaves_chain h (leaves_forAll (l := [.mbx, .net, .flags]) (fun (q : Nat × Nat) s => fnLost_leaves q.1 q.2 0xFE s) r.2 r.1)

theorem enterRun_leaves (s : State) : leaves [.regs, .fns, .scene, .mbx, .net, .flags] s (enterRun s) := by
  unfold enterRun; dsimp only
  exact leaves_ite (leaves_chain (setReg_leaves _ _ _ s) (mapTake_leaves _)) (leaves_wider (setReg_leaves _ _ _ s))

theorem noteRun_leaves (s0 s : State) : leaves [.regs, .fns, .scene, .mbx, .net, .flags] s (noteRun s0 s) :=
  leaves_ite (enterRun_leaves s) (leaves_refl _ s)

/-- A part that settling leaves. -/
theorem tail_part (s0 y : State) (q : StatePart) (h : q ∉ [StatePart.queue, .variant, .clock, .power, .scene, .flags]) :
    q.eqv y (settle (noteIdle (noteHeld (holdFixed s0 y)))) := by
  have h1 : leaves [.queue, .variant, .clock] y (holdFixed s0 y) := by
    intro q hq; cases q <;> first | rfl | exact absurd (by decide) hq
  have h2 : ∀ x : State, leaves [.scene] x (noteHeld x) := by
    intro x; unfold noteHeld; dsimp only
    exact leaves_ite (put_scene x _) (put_scene x _)
  have h3 : ∀ x : State, leaves [.power] x (noteIdle x) := fun x => put_power x _
  have h4 : ∀ x : State, leaves [.power, .flags] x (settle x) := by
    intro x; unfold settle
    exact leaves_ite (leaves_refl _ x) (leaves_chain (put_power x _) (setIrq_leaves _ _))
  exact (leaves_chain (k := [.queue, .variant, .clock, .power, .scene, .flags])
    (leaves_chain (k := [.queue, .variant, .clock, .power, .scene, .flags])
      (leaves_chain (k := [.queue, .variant, .clock, .power, .scene, .flags]) h1 (h2 _)) (h3 _)) (h4 _)) q h

/-- What a meaning changes is what its command changes, beside what the entry to Run may write. -/
theorem changesOnly_any {l : List StatePart} {t : Nat} {f : State → State} {s : State} (h : leaves l (atTime t s) (f (atTime t s)))
    (hl : ∀ q ∈ [StatePart.regs, .fns, .scene, .mbx, .net, .flags], q ∈ l) : changesOnly l t s (after t f s) := by
  refine ⟨after_now t f s, fun q hq => ?_⟩
  have hy : leaves l (atTime t s) (noteRun (atTime t s) (f (atTime t s))) := leaves_trans h (leaves_mono (noteRun_leaves _ _) hl)
  by_cases hc : q ∈ [StatePart.queue, .variant, .clock, .power, .scene, .flags]
  · have h0 := h q hq
    simp only [List.mem_cons, List.not_mem_nil, or_false] at hc
    rcases hc with rfl | rfl | rfl | rfl | rfl | rfl
    · exact after_pending t f s
    · exact after_variant t f s
    · trivial
    · refine (after_power t f s (fun w => { w with failLevel := s.power.failLevel, idleSince := s.power.idleSince })
        (fun _ _ => rfl) (fun _ _ => rfl)).trans ?_
      rw [show (f (atTime t s)).power = s.power from h0]
    · exact absurd (hl .scene (by decide)) hq
    · exact absurd (hl .flags (by decide)) hq
  · have := eqv_trans (hy q hq) (tail_part (atTime t s) _ q hc)
    cases q <;> first | exact absurd (by decide) hc | exact this

end Sys2Proof.Machine
end

