-- ==== Sys2Proof/Laws/Rounds.lean ====
section
/-! SUPPORT. What the operations on rounds, faults, the Logbook's writes and the sheds' reloads can change. -/

namespace Sys2Proof.Machine

-- One declaration after another: side by side they need a thread each, with its own stack.
set_option Elab.async false

open Sys2Proof

theorem setRegf_leaves (a n h l v : Nat) (s : State) : leaves [.regs] s (setRegf a n h l v s) := put_regs s _
theorem bumpReg_leaves (a n h l : Nat) (s : State) : leaves [.regs] s (bumpReg a n h l s) := put_regs s _
theorem addReg_leaves (a n h l k : Nat) (s : State) : leaves [.regs] s (addReg a n h l k s) := put_regs s _

theorem regf_congr {s u : State} (h : u.regs = s.regs) (d n a b : Nat) : regf u d n a b = regf s d n a b := by unfold regf reg; rw [h]
theorem reg_congr {s u : State} (h : u.regs = s.regs) (d n : Nat) : reg u d n = reg s d n := by unfold reg; rw [h]
theorem yf_congr {s u : State} (h : u.regs = s.regs) (n a b : Nat) : yf u n a b = yf s n a b := regf_congr h _ _ _ _

/-! The Logbook's writes (14). -/

theorem writeSlot_leaves (r : LogRec) (s : State) : leaves [.log] s (writeSlot r s) := by
  unfold writeSlot
  split
  · exact put_log _ _
  · exact countDrop_leaves _ _

theorem writeRing_leaves (f : Nat) (s : State) : leaves [.log] s (writeRing f s) :=
  leaves_chain (leaves_forAll (fun r s => writeSlot_leaves _ s) _ s) (put_log _ _)

theorem answerWaits_leaves (s : State) : leaves [.log, .mbx, .net] s (answerWaits s) := by
  unfold answerWaits; dsimp only
  exact leaves_chain (put_log _ _) (leaves_forAll (fun w s => pushReply_leaves _ _ _ _ _ s) _ _)

theorem flushRing_leaves (s : State) : leaves [.log, .mbx, .net, .store] s (flushRing s) :=
  leaves_chain (leaves_chain (k := [.log, .store]) (put_store _ _) (writeRing_leaves _ _)) (answerWaits_leaves _)

theorem accountSave_leaves (s : State) : leaves [.log, .store] s (accountSave s) := by
  unfold accountSave; dsimp only
  intro q hq; cases q <;> first | rfl | exact absurd (by decide) hq

theorem accountWrite_leaves (s : State) : leaves [.log, .store] s (accountWrite s) :=
  leaves_ite (leaves_wider (put_store _ _)) (accountSave_leaves _)

/-- A snapshot's commit writes the Tack Room, and moves the armed record that stood in its way (14, R402). -/
theorem tackCommit_leaves (x : Snapshot) (s : State) : leaves [.log, .therm] s (tackCommit x s) := by
  unfold tackCommit; dsimp only
  split
  · exact leaves_chain (leaves_chain (k := [.log, .therm]) (put_log s _) (put_therm _ _)) (put_log _ _)
  · exact leaves_chain (put_log s _) (put_log _ _)

theorem commitSnapshots_leaves (s : State) : leaves [.log, .store, .therm] s (commitSnapshots s) := by
  unfold commitSnapshots; dsimp only
  refine leaves_chain (l := [.log, .store]) (m := [.log, .therm]) ?_ (leaves_forAll (fun p s => tackCommit_leaves _ s) _ _)
  intro q hq; cases q <;> first | rfl | exact absurd (by decide) hq

/-! Reloads and rounds (02, R78; 05). -/

theorem sendEngines_leaves (k : Nat) (s : State) : leaves [.links] s (sendEngines k s) := by
  unfold sendEngines; dsimp only
  exact leaves_ite (leaves_forAll (l := [.links]) (fun c s => command_leaves k (.patCtl c) s) _ s) (sendPkt_leaves _ _ _ s)

theorem reloadShed_leaves (k : Nat) (s : State) : leaves [.links, .scene] s (reloadShed k s) := by
  unfold reloadShed
  exact leaves_ite (leaves_wider (put_scene s _))
    (leaves_chain (l := [.links]) (m := [.links]) (sendEngines_leaves k s) (writeWords_leaves k _ _))

theorem flushWrites_leaves (s : State) : leaves [.links, .scene] s (flushWrites s) := by
  unfold flushWrites; dsimp only
  refine leaves_ite (leaves_refl _ s) ?_
  refine leaves_chain (l := [.links, .scene]) (m := [.links, .scene]) ?_
    (leaves_forAll (fun k s => leaves_ite (reloadShed_leaves k s) (leaves_refl _ s)) _ _)
  exact leaves_chain (l := [.scene]) (put_scene s _) (leaves_forAll (l := [.links]) (fun _ s => writeWords_leaves _ _ s) _ _)

theorem commandAll_leaves (c : Cmd) (s : State) : leaves [.links] s (commandAll c s) :=
  leaves_forAll (fun _ s => command_leaves _ _ s) _ s

theorem endCapture_leaves (s : State) : leaves [.lt, .mbx, .net] s (endCapture s) := by
  unfold endCapture
  split
  · exact leaves_refl _ s
  · dsimp only
    exact leaves_ite (leaves_wider (put_lt s _)) (leaves_chain (put_lt s _) (pushReply_leaves _ _ _ _ _ _))

theorem stopCapture_leaves (k : Nat) (s : State) : leaves [.lt, .mbx, .net] s (stopCapture k s) := by
  unfold stopCapture
  split
  · exact leaves_ite (endCapture_leaves s) (leaves_refl _ s)
  · exact leaves_refl _ s

theorem abandonRetest_leaves (c d : Nat) (s : State) :
    leaves [.therm, .fns, .links, .scene, .mbx, .net] s (abandonRetest c d s) := by
  unfold abandonRetest
  split
  · exact leaves_refl _ s
  · rename_i r _
    dsimp only
    refine leaves_chain (l := [.therm, .fns, .links, .scene]) ?_ (pushReply_leaves _ _ _ _ _ _)
    have h := updFn_leaves r.fn (fun x => { x with st := 1 }) { s with therm := { s.therm with retest := none } }
    exact leaves_chain (l := [.therm, .fns]) (m := [.links, .scene]) (leaves_chain (put_therm s _) h)
      (leaves_ite (sendFnState_leaves _ _ _ _) (leaves_refl _ _))

theorem abandonRetestIn_leaves (k : Nat) (s : State) : leaves [.therm, .fns, .links, .scene, .mbx, .net] s (abandonRetestIn k s) := by
  unfold abandonRetestIn
  split
  · exact leaves_ite (leaves_refl _ s) (abandonRetest_leaves _ _ s)
  · exact leaves_refl _ s

theorem broadcastFallback_leaves (s : State) : leaves [.lt, .therm, .fns, .links, .scene, .mbx, .net] s (broadcastFallback s) := by
  unfold broadcastFallback; dsimp only
  refine leaves_chain (l := [.lt, .therm, .fns, .links, .scene, .mbx, .net])
    (leaves_chain (l := [.lt, .therm, .fns, .links, .scene, .mbx, .net]) (leaves_forAll (fun k s => ?_) _ s) (put_scene _ _))
    (commandAll_leaves _ _)
  exact leaves_chain (stopCapture_leaves k s) (abandonRetestIn_leaves k _)

/-- The commits of an aborted round are answered and give back their pages (05, R159, R162). -/
theorem abortCommits_leaves (l : List Commit) (c d i : Nat) (s : State) : leaves [.win, .log, .mbx, .net] s (forAll l (fun x s =>
    pushReply x.sess x.entry c d [] (logX 0x0201 1 0 x.sess x.frameId c i (returnPages x.sess x.pages s))) s) :=
  leaves_forAll (fun _ s => leaves_chain (leaves_chain (k := [.win, .log]) (returnPages_leaves _ _ s) (logX_leaves _ _ _ _ _ _ _ _))
    (pushReply_leaves _ _ _ _ _ _)) l s

theorem abortRound_leaves (c d i : Nat) (s : State) :
    leaves [.links, .scene, .win, .log, .mbx, .net, .lt, .therm, .fns] s (abortRound c d i s) := by
  unfold abortRound
  split
  · exact leaves_refl _ s
  · rename_i r _
    dsimp only
    have h0 : leaves [.links] s (forAll r.sheds (fun k s => command k .abort s) s) :=
      leaves_forAll (l := [.links]) (fun k s => command_leaves k .abort s) r.sheds s
    generalize forAll r.sheds (fun k s => command k .abort s) s = x at h0 ⊢
    have h2 := abortCommits_leaves r.commits c d i { x with scene := { x.scene with round := none } }
    generalize forAll r.commits _ { x with scene := { x.scene with round := none } } = y at h2 ⊢
    have h1 : leaves [.links, .scene, .win, .log, .mbx, .net] s y :=
      leaves_chain (leaves_chain (k := [.links, .scene]) h0 (put_scene _ _)) h2
    refine leaves_ite ?_ ?_
    · exact leaves_chain (leaves_chain (k := [.links, .scene, .win, .log, .mbx, .net, .lt, .therm, .fns])
        (leaves_chain (k := [.links, .scene, .win, .log, .mbx, .net]) h1 (put_scene _ _)) (broadcastFallback_leaves _)) (flushWrites_leaves _)
    · exact leaves_chain (leaves_chain (k := [.links, .scene, .win, .log, .mbx, .net]) h1 (put_scene _ _)) (flushWrites_leaves _)

/-- The abort of a round that is not the second SAFE one sends no FALLBACK (15, R412). -/
theorem abortRound_calm (c d i : Nat) {s : State} (h : s.scene.safeTries = 0) :
    leaves [.links, .scene, .win, .log, .mbx, .net] s (abortRound c d i s) := by
  unfold abortRound
  split
  · exact leaves_refl _ s
  · rename_i r _
    dsimp only
    have h0 : leaves [.links] s (forAll r.sheds (fun k s => command k .abort s) s) :=
      leaves_forAll (l := [.links]) (fun k s => command_leaves k .abort s) r.sheds s
    generalize forAll r.sheds (fun k s => command k .abort s) s = x at h0 ⊢
    have h1 := abortCommits_leaves r.commits c d i { x with scene := { x.scene with round := none } }
    generalize forAll r.commits _ { x with scene := { x.scene with round := none } } = y at h1 ⊢
    have ht : y.scene.safeTries = 0 := by
      have e := h1 .scene (by decide)
      rw [show y.scene = _ from e]
      show x.scene.safeTries = 0
      rw [show x.scene = s.scene from h0 .scene (by decide)]; exact h
    have h2 : leaves [.links, .scene, .win, .log, .mbx, .net] s y :=
      leaves_chain (leaves_chain (k := [.links, .scene]) h0 (put_scene _ _)) h1
    have hc : ∀ b : Bool, (b && decide ((if b = true then y.scene.safeTries + 1 else y.scene.safeTries) ≥ 2)) = false := by
      intro b; cases b <;> simp [ht]
    rw [if_neg (by rw [hc]; decide)]
    exact leaves_chain (leaves_chain (k := [.links, .scene, .win, .log, .mbx, .net]) h2 (put_scene _ _)) (flushWrites_leaves _)

theorem endSafe_leaves (s : State) : leaves [.links, .scene, .win, .log, .mbx, .net, .sheds] s (endSafe s) := by
  unfold endSafe; dsimp only
  refine leaves_chain (l := [.links, .scene, .win, .log, .mbx, .net]) (m := [.links, .scene, .sheds])
    (leaves_chain (l := [.links, .scene, .win, .log, .mbx, .net]) (m := [.scene]) ?_ (put_scene _ _)) (leaves_forAll (fun k s => ?_) _ _)
  · split
    · exact leaves_ite (leaves_chain (put_scene _ _) (abortRound_calm _ _ _ rfl)) (leaves_refl _ _)
    · exact leaves_refl _ _
  · exact leaves_chain (updShed_leaves _ _ _) (reloadShed_leaves _ _)

theorem endShutdown_leaves (s : State) : leaves [.power] s (endShutdown s) := leaves_ite (leaves_refl _ s) (put_power s _)

/-- With no round running, `endSafe` leaves the mailboxes. -/
theorem endSafe_idle {s : State} (h : s.scene.round = none) : leaves [.links, .scene, .sheds] s (endSafe s) := by
  unfold endSafe; dsimp only
  rw [h]
  exact leaves_chain (l := [.scene]) (m := [.links, .scene, .sheds]) (put_scene _ _)
    (leaves_forAll (fun k s => leaves_chain (updShed_leaves _ _ _) (reloadShed_leaves _ _)) _ _)

theorem dropFault_any {l : List StatePart} (det : Nat) (dies : List Nat) (s : State)
    (he : ∀ x : State, x.scene = s.scene → leaves l x (endSafe x)) (hl : ∀ q ∈ [StatePart.faults, .regs, .marks, .power], q ∈ l) :
    leaves l s (dropFault det dies s) := by
  have w : ∀ {m : List StatePart} {a b : State}, leaves m a b → (∀ q ∈ m, q ∈ [StatePart.faults, .regs, .marks, .power]) → leaves l a b :=
    fun h hm => leaves_mono h (fun q hq => hl q (hm q hq))
  have h1 : ∀ (f : Det) (s : State), leaves l s (setDet det f s) := fun f s => w (setDet_leaves _ _ s) (by decide)
  have h2 : ∀ s : State, leaves l s (forAll (dies.filter (· ≠ 0)) (fun i s => setRegf (i - 1) R.linkSt 9 9 0 s) s) :=
    fun s => w (leaves_forAll (fun i s => setRegf_leaves _ _ _ _ _ s) _ s) (by decide)
  have h2s : ∀ s : State, (forAll (dies.filter (· ≠ 0)) (fun i s => setRegf (i - 1) R.linkSt 9 9 0 s) s).scene = s.scene :=
    fun s => leaves_forAll (l := [.regs]) (fun i s => setRegf_leaves _ _ _ _ _ s) _ s .scene (by decide)
  unfold dropFault; dsimp only
  generalize hx : (if det = 0x07 && _ then _ else _ : State) = x
  have hxs : leaves l s x ∧ x.scene = s.scene := by
    rw [← hx]
    split
    · split
      · exact ⟨leaves_trans (leaves_trans (h1 _ s) (h2 _)) (w (put_marks _ _) (by decide)), h2s _⟩
      · exact ⟨leaves_trans (h1 _ s) (w (put_marks _ _) (by decide)), rfl⟩
    · split
      · exact ⟨leaves_trans (h1 _ s) (h2 _), h2s _⟩
      · exact ⟨h1 _ s, rfl⟩
  have hy : leaves l s (if safeOn s && !safeOn x then endSafe x else x) := leaves_ite (leaves_trans hxs.1 (he x hxs.2)) hxs.1
  generalize (if safeOn s && !safeOn x then endSafe x else x) = y at hy ⊢
  exact leaves_ite (leaves_trans hy (w (endShutdown_leaves _) (by decide))) hy

theorem dropFault_leaves (det : Nat) (dies : List Nat) (s : State) :
    leaves [.faults, .regs, .marks, .power, .links, .scene, .win, .log, .mbx, .net, .sheds] s (dropFault det dies s) :=
  dropFault_any det dies s (fun x _ => leaves_wider (endSafe_leaves x)) (by decide)

/-- With no round running, the end of a fault leaves the mailboxes. -/
theorem dropFault_idle (det : Nat) (dies : List Nat) {s : State} (h : s.scene.round = none) :
    leaves [.faults, .regs, .marks, .power, .links, .scene, .sheds] s (dropFault det dies s) :=
  dropFault_any det dies s (fun x hx => leaves_wider (endSafe_idle (by rw [hx]; exact h))) (by decide)

theorem dropFault_regs {det : Nat} (hd : det ≠ 0x09) (dies : List Nat) (s : State) : (dropFault det dies s).regs = s.regs := by
  unfold dropFault; dsimp only
  rw [if_neg hd]
  have h1 : ∀ x : State, x.regs = s.regs → (endSafe x).regs = s.regs := fun x h => (endSafe_leaves x .regs (by decide)).trans h
  have h2 : ∀ x : State, x.regs = s.regs → (endShutdown x).regs = s.regs := fun x h => (endShutdown_leaves x .regs (by decide)).trans h
  generalize hx : (if det = 0x07 && _ then _ else _ : State) = x
  have hxs : x.regs = s.regs := by rw [← hx]; split <;> rfl
  have hy : (if safeOn s && !safeOn x then endSafe x else x).regs = s.regs := by
    split
    · exact h1 x hxs
    · exact hxs
  generalize (if safeOn s && !safeOn x then endSafe x else x) = y at hy ⊢
  split
  · exact h2 y hy
  · exact hy

theorem endShutdown_power {β : Type} (q : Power → β) (hq : ∀ w a b, q { w with lineOff := a, resumeAt := b } = q w) (s : State) :
    q (endShutdown s).power = q s.power := by
  unfold endShutdown; split
  · rfl
  · exact hq _ _ _

/-- The end of a fault touches no more of the power part than the shutdown line. -/
theorem dropFault_power {β : Type} (q : Power → β) (hq : ∀ w a b, q { w with lineOff := a, resumeAt := b } = q w) (det : Nat) (dies : List Nat)
    (s : State) : q (dropFault det dies s).power = q s.power := by
  have h0 : ∀ x : State, (forAll (dies.filter (· ≠ 0)) (fun i s => setRegf (i - 1) R.linkSt 9 9 0 s) x).power = x.power :=
    fun s => leaves_forAll (l := [.regs]) (fun i s => setRegf_leaves _ _ _ _ _ s) _ s .power (by decide)
  unfold dropFault; dsimp only
  generalize hx : (if det = 0x07 && _ then _ else _ : State) = x
  have hxs : x.power = s.power := by
    rw [← hx]; split
    · split
      · exact h0 _
      · rfl
    · split
      · exact h0 _
      · rfl
  have hy : (if safeOn s && !safeOn x then endSafe x else x).power = s.power := by
    split
    · exact (endSafe_leaves x .power (by decide)).trans hxs
    · exact hxs
  generalize (if safeOn s && !safeOn x then endSafe x else x) = y at hy ⊢
  split
  · rw [endShutdown_power q hq, hy]
  · rw [hy]

/-! The entry to Run and the replies. -/

theorem reg_enterRun {n : Nat} (h : regKey yardDie n ≠ regKey yardDie R.nwCfg) (s : State) : reg (enterRun s) yardDie n = reg s yardDie n := by
  unfold enterRun; dsimp only
  split
  · rw [reg_congr (mapTake_leaves _ .regs (by decide)), reg_setReg_other _ _ h]
  · rw [reg_setReg_other _ _ h]

/-- A yard register other than NW_CFG after a command, as the command's own part left it. -/
theorem yf_after {n : Nat} (h : regKey yardDie n ≠ regKey yardDie R.nwCfg) (a b t : Nat) (f : State → State) (s : State) :
    yf (after t f s) n a b = yf (f (atTime t s)) n a b := by
  have h1 : (after t f s).regs = (noteRun (atTime t s) (f (atTime t s))).regs := tail_part _ _ .regs (by decide)
  rw [yf_congr h1]
  unfold noteRun
  split
  · unfold yf regf; rw [reg_enterRun h]
  · rfl

/-- What a mailbox's replies show stays. -/
def sameShown (n : Nat) (s u : State) : Prop := (getMbx u n).replies.map shown = (getMbx s n).replies.map shown

theorem sameShown_trans {n : Nat} {s u v : State} (h : sameShown n s u) (g : sameShown n u v) : sameShown n s v := g.trans h

theorem sameShown_congr {n : Nat} {s u : State} (h : u.mbx = s.mbx) : sameShown n s u := by unfold sameShown; rw [getMbx_congr h]

theorem sameShown_forAll {α : Type} {n : Nat} {f : α → State → State} (h : ∀ a s, sameShown n s (f a s)) (l : List α) (s : State) :
    sameShown n s (forAll l f s) := by
  unfold forAll
  induction l generalizing s with
  | nil => exact rfl
  | cons a l ih => exact sameShown_trans (h a s) (ih _)

theorem sameShown_event (n m c a b : Nat) (s : State) : sameShown n s (pushEvent m c a b s) := by
  unfold pushEvent; dsimp only
  by_cases hn : n = m
  · subst hn
    split
    · unfold sameShown; rw [getMbx_setMbx_self]
    · unfold sameShown
      rw [(restage_restaged n _).1, getMbx_setMbx_self]
  · split
    · unfold sameShown; rw [getMbx_setMbx_other _ _ hn]
    · unfold sameShown; rw [getMbx_restage_other hn, getMbx_setMbx_other _ _ hn]

theorem sameShown_hostEvent (n c a b : Nat) (s : State) : sameShown n s (hostEvent c a b s) := by
  unfold hostEvent; dsimp only
  refine sameShown_trans (u := match irqOf c with | some i => setIrq i s | none => s) ?_ (sameShown_forAll (fun m s => sameShown_event n m c a b s) _ _)
  split <;> exact rfl

theorem sameShown_fnLost (n m f k : Nat) (s : State) : sameShown n s (fnLost m f k s) := by
  unfold fnLost; dsimp only
  have h : sameShown n s (if decide ((getSess s m).src = .spit) then setIrq 6 s else s) := by split <;> exact rfl
  generalize (if decide ((getSess s m).src = .spit) then setIrq 6 s else s) = x at h ⊢
  split
  · exact sameShown_trans h (sameShown_event _ _ _ _ _ _)
  · exact h

theorem sameShown_mapTake (n : Nat) (s : State) : sameShown n s (mapTake s) := by
  unfold mapTake
  have h := mapRequest_leaves s .mbx (by decide)
  generalize mapRequest s = r at h ⊢
  exact sameShown_trans (sameShown_congr h) (sameShown_forAll (fun (q : Nat × Nat) s => sameShown_fnLost n q.1 q.2 0xFE s) r.2 r.1)

/-- What the replies of a mailbox show after a command, as its own part left them. -/
theorem sameShown_after (n t : Nat) (f : State → State) (s : State) : sameShown n (f (atTime t s)) (after t f s) := by
  have h1 : (after t f s).mbx = (noteRun (atTime t s) (f (atTime t s))).mbx := tail_part _ _ .mbx (by decide)
  refine sameShown_trans ?_ (sameShown_congr h1)
  unfold noteRun
  split
  · unfold enterRun; dsimp only
    split
    · exact sameShown_trans (sameShown_congr (setReg_leaves _ _ _ _ .mbx (by decide))) (sameShown_mapTake n _)
    · exact sameShown_congr (setReg_leaves _ _ _ _ .mbx (by decide))
  · exact rfl

/-- A mailbox's command entries stay. -/
def sameQueue (n : Nat) (s u : State) : Prop := (getMbx u n).queue = (getMbx s n).queue

theorem sameQueue_trans {n : Nat} {s u v : State} (h : sameQueue n s u) (g : sameQueue n u v) : sameQueue n s v := g.trans h

theorem sameQueue_congr {n : Nat} {s u : State} (h : u.mbx = s.mbx) : sameQueue n s u := by unfold sameQueue; rw [getMbx_congr h]

theorem sameQueue_forAll {α : Type} {n : Nat} {f : α → State → State} (h : ∀ a s, sameQueue n s (f a s)) (l : List α) (s : State) :
    sameQueue n s (forAll l f s) := by
  unfold forAll
  induction l generalizing s with
  | nil => exact rfl
  | cons a l ih => exact sameQueue_trans (h a s) (ih _)

theorem sameQueue_event (n m c a b : Nat) (s : State) : sameQueue n s (pushEvent m c a b s) := by
  unfold pushEvent; dsimp only
  by_cases hn : n = m
  · subst hn
    split
    · unfold sameQueue; rw [getMbx_setMbx_self]
    · unfold sameQueue; rw [(restage_restaged n _).2.1, getMbx_setMbx_self]
  · split
    · unfold sameQueue; rw [getMbx_setMbx_other _ _ hn]
    · unfold sameQueue; rw [getMbx_restage_other hn, getMbx_setMbx_other _ _ hn]

theorem sameQueue_hostEvent (n c a b : Nat) (s : State) : sameQueue n s (hostEvent c a b s) := by
  unfold hostEvent; dsimp only
  refine sameQueue_trans (u := match irqOf c with | some i => setIrq i s | none => s) ?_ (sameQueue_forAll (fun m s => sameQueue_event n m c a b s) _ _)
  split <;> exact rfl

theorem sameQueue_fnLost (n m f k : Nat) (s : State) : sameQueue n s (fnLost m f k s) := by
  unfold fnLost; dsimp only
  have h : sameQueue n s (if decide ((getSess s m).src = .spit) then setIrq 6 s else s) := by split <;> exact rfl
  generalize (if decide ((getSess s m).src = .spit) then setIrq 6 s else s) = x at h ⊢
  split
  · exact sameQueue_trans h (sameQueue_event _ _ _ _ _ _)
  · exact h

theorem sameQueue_mapTake (n : Nat) (s : State) : sameQueue n s (mapTake s) := by
  unfold mapTake
  have h := mapRequest_leaves s .mbx (by decide)
  generalize mapRequest s = r at h ⊢
  exact sameQueue_trans (sameQueue_congr h) (sameQueue_forAll (fun (q : Nat × Nat) s => sameQueue_fnLost n q.1 q.2 0xFE s) r.2 r.1)

/-- A mailbox's command entries after a command, as its own part left them. -/
theorem sameQueue_after (n t : Nat) (f : State → State) (s : State) : sameQueue n (f (atTime t s)) (after t f s) := by
  have h1 : (after t f s).mbx = (noteRun (atTime t s) (f (atTime t s))).mbx := tail_part _ _ .mbx (by decide)
  refine sameQueue_trans ?_ (sameQueue_congr h1)
  unfold noteRun
  split
  · unfold enterRun; dsimp only
    split
    · exact sameQueue_trans (sameQueue_congr (setReg_leaves _ _ _ _ .mbx (by decide))) (sameQueue_mapTake n _)
    · exact sameQueue_congr (setReg_leaves _ _ _ _ .mbx (by decide))
  · exact rfl

/-- A command that is answered at once, whatever events its own part pushes: its reply stands, and its entry has ended. -/
theorem jhp_replied {t n op c d : Nat} {e : Entry} {p : List Byte} {s z : State} {len : List Byte → Nat} {rsvd : List Byte → Bool}
    {priv : Nat} {body : Entry → State → Rep × State} (hi : inTurn s n op e) (hw : wellPut s n e (len e.payload) rsvd priv)
    (hb : body e (begun t n e s) = (.now c d p, z)) (hv : isViolation c = false)
    (hq : ∀ j, sameQueue j (begun t n e s) z) (hs : sameShown n (begun t n e s) z) :
    act t (runJhp n op len rsvd priv body) s = .next (after t (fun _ => pushReply n e.id c d p z) s)
    ∧ replied s (after t (fun _ => pushReply n e.id c d p z) s) n e c d p := by
  refine ⟨jhp_now hi hw hb hv (known_queue hq (known_begun hi)), ?_⟩
  have hsh : (getMbx z n).replies.map shown = (getMbx s n).replies.map shown := by
    have : sameShown n s (begun t n e s) := by unfold sameShown; rw [getMbx_begun]
    exact sameShown_trans this hs
  have h1 := pushReply_begun (c := c) (d := d) (p := p) (headEntry_mem hi.1) (hq n) hsh
  have h2 := sameShown_after n t (fun _ => pushReply n e.id c d p z) s
  have h3 := sameQueue_after n t (fun _ => pushReply n e.id c d p z) s
  unfold replied sameShown sameQueue at *
  dsimp only at h1 h2 h3 ⊢
  rw [h2, h3]; exact h1

end Sys2Proof.Machine
end

