-- ==== Sys2Proof/WellFormed.lean ====
section
/-! DEFINITION. Which commands have operands that the interfaces can carry: sink and row numbers, ADC codes, identifiers and
lengths lie in their ranges. The package gives every command a meaning; a meaning ignores what lies outside these ranges. -/

namespace Sys2Proof

/-- Sinks of a shed are below 128, rows below 16 (01, Table 1.2). -/
def PeriodObs.wf (o : PeriodObs) : Bool :=
  o.pulses.all (fun p => p.ch < 128 && p.row < 16 && p.code < 4096)
  && o.offs.all (fun p => p.ch < 128 && p.row < 16)
  && o.switches.all (fun p => p.sw < 16) && o.boosters.all fun p => p.xc < 8

/-- A packet has at most 33 words (01, R33). -/
def PacketErr.wf (e : PacketErr) : Bool := e.fixed + e.bad ≤ 33

/-- Four thermistor codes of 12 bits, four sink supplies, four scan supplies (07, R202; 09, Table 9.1). -/
def ShedReadings.wf (r : ShedReadings) : Bool :=
  r.ntc.length == 4 && r.ntc.all (· < 4096) && r.vls.length == 4 && r.vscan.length == 4

/-- A tag has 12 identifier bits and 3 priority bits; a payload has at most 1,500 bytes; only the 10BASE-T1S segment has collisions (11, R312,
R314 to R316). -/
def EthFrame.wf (f : EthFrame) : Bool :=
  f.vid < 4096 && f.pcp < 8 && f.payload.length ≤ 1500 && f.node < 32 && (!f.collision || f.port.val == 1)

/-- A datagram fits a frame (11, R320). -/
def Datagram.wf (d : Datagram) : Bool := d.body.length ≤ 1472

/-- Echo data fits a frame (11, R320). -/
def IpRequest.wf (r : IpRequest) : Bool := r.data.length ≤ 1472

/-- A base identifier has 11 bits, an extended one 29; a frame has 8 data bytes, an FD frame up to 64 in the FD lengths
(11, R327). -/
def CanFrame.wf (f : CanFrame) : Bool :=
  (if f.ide then f.id < 2 ^ 29 else f.id < 2 ^ 11)
  && (if f.fdf then [0, 1, 2, 3, 4, 5, 6, 7, 8, 12, 16, 20, 24, 32, 48, 64].contains f.data.length else f.data.length ≤ 8)

/-- The command's operands lie in their ranges. -/
def WellFormed : Instr → Bool
  | .markWordSend _ _ => true
  | .yardFrameMark _ => true
  | .mark _ _ _ _ _ => true
  | .shedMarkFire _ _ => true
  | .freeRunMark _ _ => true
  | .greyClockLock _ _ => true
  | .linkLatencyCalibration _ _ _ => true
  | .linkTrained _ _ _ r => ShedReadings.wf r
  | .linkTrainAttempt _ _ => true
  | .write _ _ _ err => PacketErr.wf err
  | .readReq _ _ _ err => PacketErr.wf err
  | .readData _ _ _ err => PacketErr.wf err
  | .prepare _ _ _ err => PacketErr.wf err.toPacketErr && err.badWord.all (· < 65536)
  | .prepareOk _ _ _ err => PacketErr.wf err
  | .prepareFail _ _ _ err => PacketErr.wf err
  | .frameStatus _ _ _ err => PacketErr.wf err
  | .event _ _ _ err => PacketErr.wf err
  | .commit _ _ _ err => PacketErr.wf err
  | .abort _ _ _ err => PacketErr.wf err
  | .patCtl _ _ _ err => PacketErr.wf err
  | .derate _ _ _ err => PacketErr.wf err
  | .failOff _ _ _ err => PacketErr.wf err
  | .govern _ _ _ err => PacketErr.wf err
  | .round _ _ _ err => PacketErr.wf err
  | .fallback _ _ _ err => PacketErr.wf err
  | .inject _ _ _ err => PacketErr.wf err
  | .ack _ _ _ _ _ => true
  | .nak _ _ _ _ _ => true
  | .heartbeat _ _ _ _ => true
  | .idleWord _ _ _ _ => true
  | .heartbeatSend _ _ _ => true
  | .heartbeatTimeout _ _ _ => true
  | .retryTimeout _ _ _ => true
  | .pwmPeriodEnd _ _ obs => PeriodObs.wf obs
  | .trimDropout _ _ _ => true
  | .placementStart _ _ => true
  | .placerDone _ _ _ _ => true
  | .placerDeadline _ _ => true
  | .spreadToLevel _ _ _ => true
  | .sinkOvervoltage _ _ _ _ => true
  | .scanOvercurrentTrip _ _ _ => true
  | .boosterOvercurrent _ _ _ => true
  | .debounceComplete _ _ _ => true
  | .freshnessExpiry _ _ _ _ => true
  | .probeDebtDrop _ _ _ => true
  | .keyframeEnd _ _ _ => true
  | .phaseDelayEnd _ _ _ => true
  | .fadeEnd _ _ _ => true
  | .engineCheckpoint _ _ => true
  | .shedRoundComplete _ _ r => ShedReadings.wf r
  | .retestEvaluation _ => true
  | .ltCalCaptureEnd _ => true
  | .housekeepingRound _ => true
  | .nvDeferredWrite _ => true
  | .armedRecordRewrite _ => true
  | .overtempTrip _ _ => true
  | .deferredHotWrite _ => true
  | .hotRecordVerify _ _ _ => true
  | .verdictMapPublish _ => true
  | .functionStateTableUpdate _ => true
  | .deviceStatusPageUpdate _ => true
  | .commitRoundStart _ => true
  | .commitTimeout _ => true
  | .supplyValid _ => true
  | .crystalStable _ => true
  | .pwrEnStartup _ => true
  | .stableLoadRetry _ => true
  | .firmwareStart _ => true
  | .powerOnReset _ => true
  | .railBrownout _ => true
  | .resetNAssert _ _ => true
  | .resetNRelease _ => true
  | .watchdogExpiry _ => true
  | .powerFailDetected _ => true
  | .powerFailFlushDone _ => true
  | .vbatReturn _ lowest => decide (lowest < 65536)
  | .dipResume _ => true
  | .nwIdleTimeout _ => true
  | .nwFlushDone _ => true
  | .wakePinEvent _ _ => true
  | .linkEnergyDetected _ => true
  | .wakeTimerExpiry _ => true
  | .wakeFrame _ payload => decide (payload.length ≤ 1500)
  | .wakeFrameWindowExpiry _ => true
  | .pwrEnWakeRise _ => true
  | .sessionOpen _ _ => true
  | .sessionClose _ _ => true
  | .sessionKeepalive _ _ => true
  | .sessionChallenge _ _ => true
  | .sessionAuth _ _ => true
  | .sessionDrop _ _ => true
  | .sessionEvents _ _ => true
  | .sessionInfo _ _ => true
  | .pageTake _ _ => true
  | .pageRelease _ _ => true
  | .pageLock _ _ => true
  | .pageUnlock _ _ => true
  | .fnAcquire _ _ => true
  | .fnRelease _ _ => true
  | .leaseExpiry _ _ => true
  | .doorbellRing _ _ => true
  | .doorbellPendingCopy _ _ => true
  | .replyAcknowledge _ _ => true
  | .winDataWrite _ _ => true
  | .winDataRead _ => true
  | .frontRegisterWrite _ _ _ => true
  | .spitStatus _ _ _ => true
  | .regRead _ _ _ => true
  | .regWrite _ _ _ => true
  | .mbxWrite _ _ _ => true
  | .mbxRead _ _ _ => true
  | .winWrite _ _ _ => true
  | .winRead _ _ _ => true
  | .spitRefusedType _ _ _ => true
  | .ethernetFrame _ f => EthFrame.wf f
  | .learnedEntryAgeOut _ _ vid => decide (vid < 4096)
  | .t1LinkUp _ => true
  | .t1LinkDown _ => true
  | .plcaCycle _ => true
  | .nodePresenceTimeout _ _ => true
  | .arpRequest _ r => IpRequest.wf r
  | .icmpEchoRequest _ r => IpRequest.wf r
  | .jhpCommandDatagram _ d => Datagram.wf d
  | .jhpAckDatagram _ d => Datagram.wf d
  | .replyResend _ _ => true
  | .windowWriteDatagram _ d => Datagram.wf d
  | .windowReadDatagram _ d => Datagram.wf d
  | .windowReadDelayedCopy _ => true
  | .canJhpCommandFrame _ _ f => CanFrame.wf f
  | .canJhpAckFrame _ _ f => CanFrame.wf f
  | .canReplyResend _ _ => true
  | .canDataFrame _ _ f => CanFrame.wf f
  | .canBusOff _ _ _ => true
  | .canBusOffRecovered _ _ => true
  | .canErrPassive _ _ _ _ => true
  | .canValueTimeout _ _ _ => true
  | .canStatusTx _ _ _ => true
  | .canMapLoad _ _ => true
  | .canRestart _ _ => true
  | .spimConfig _ _ => true
  | .spimXfer _ _ _ => true
  | .spimXferPage _ _ _ => true
  | .spimReset _ _ => true
  | .spimStatus _ _ => true
  | .xipConfig _ _ => true
  | .spimXipCopy _ _ flash => decide (flash.length ≤ 4096)
  | .spimTransferDone _ _ => true
  | .spimHoldTimeout _ _ => true
  | .xipCopyDone _ => true
  | .nop _ _ => true
  | .br _ _ _ => true
  | .hold _ _ _ => true
  | .sho _ _ => true
  | .shi _ _ _ => true
  | .lvl _ _ => true
  | .dir _ _ => true
  | .ld _ _ _ => true
  | .give _ _ => true
  | .take _ _ => true
  | .flag _ _ => true
  | .paddockEventAccept _ _ => true
  | .pkTxQueueMove _ _ => true
  | .pkRxQueueMove _ _ => true
  | .pkLoad _ _ => true
  | .pkStore _ _ => true
  | .pkPinConfig _ _ => true
  | .pkStart _ _ => true
  | .pkStop _ _ => true
  | .pkReset _ _ => true
  | .pkPush _ _ => true
  | .pkPull _ _ => true
  | .pkStatus _ _ => true
  | .sceneCommit _ _ => true
  | .sceneRecall _ _ => true
  | .sceneReadback _ _ => true
  | .sceneStore _ _ => true
  | .patLoad _ _ => true
  | .patStart _ _ => true
  | .patStop _ _ => true
  | .patTrigger _ _ => true
  | .patReset _ _ => true
  | .patStatus _ _ => true
  | .fnClear _ _ => true
  | .ltRead _ _ => true
  | .ltCalCapture _ _ => true
  | .ltCalStatus _ _ => true
  | .ltCalCommit _ _ => true
  | .ltCalWrite _ _ => true
  | .thermClear _ _ => true
  | .nwEnter _ _ => true
  | .logCursor _ _ => true
  | .logFetch _ _ => true
  | .logFlush _ _ => true
  | .logClear _ _ => true
  | .logSetWall _ _ => true
  | .logRateSet _ _ => true
  | .tackFetch _ _ => true
  | .lampReset _ _ => true
  | .logFlushPeriodic _ => true
  | .logFlushUrgent _ => true
  | .tackSnapshotWrite _ => true
  | .accountingSave _ => true
  | .operatingSecond _ => true
  | .nvItemWrite _ _ => true
  | .fwStatus _ _ => true
  | .fwInstallBegin _ _ => true
  | .fwInstallWrite _ _ => true
  | .fwInstallFinish _ _ => true
  | .fwInstallAbort _ _ => true
  | .fwActivate _ _ => true
  | .fwSvnRaise _ _ => true
  | .cfgRead _ _ => true
  | .cfgWrite _ _ => true
  | .cfgSave _ _ => true
  | .idRead _ _ => true
  | .keyNonce _ _ => true
  | .keySet _ _ => true
  | .keyStatus _ _ => true
  | .warmReset _ _ => true
  | .shedReset _ _ => true
  | .portReset _ _ => true
  | .faultStatus _ _ => true
  | .faultClear _ _ => true
  | .faultInject _ _ => true
  | .linkStatus _ _ => true
  | .faultRaise _ _ _ => true
  | .resetShadowEnd _ _ => true
  | .injectionTimeout _ => true
  | .scrubPass _ _ _ _ => true
  | .sramTestWordRead _ => true
  | .cryptoSelfTestDone _ _ => true
  | .spitPartialCommandByte _ _ => true
  | .wakePinInactive _ _ => true
  | .nwOscillatorInBand _ => true
  | .yardRoundConversionsComplete _ _ => true

end Sys2Proof
end

