-- ==== Sys2Proof/Tests/Slice0.lean ====
section
/-! SUPPORT. Tests of the model: a state that meets the hypotheses of each statement (witness_…), a command that each check of
WellFormed refuses, and the worked examples of the spec. -/

namespace Sys2Proof.Tests

-- One declaration after another: side by side they need a thread each, with its own stack.
set_option Elab.async false

open Sys2Proof Sys2Proof.Machine

/-! States. -/

/-- One end of a link that has just been heard. -/
def liveEnd : LinkEnd := { LinkEnd.init with lastRx := 9999990000, lastTx := 9999990000 }

/-- A ZLK8 in Run, ten seconds after power-on: every link trained, every shed joined, one millisecond after the mark of frame 1000. -/
def rdy : State :=
  { State.reset with
    now := 10000000000
    power := { Power.init with
      vbat := true, vio := true, vcore := true, pwrEn := true, phase := .done, mode := .run, fw := true, ready := true, stable := true
      por := false, osc := true, crystal := true, failLevel := false }
    marks := { Marks.init with running := true, boot := false, count := 1000, at_ := 9999000000, perP := 65536, perN := 16 }
    links := (List.range 7).map fun k => (k, { Link.init with trained := true, yard := liveEnd, shed := liveEnd })
    sheds := (List.range 7).map fun k => (k, { Shed.init with
      mode := .joined, frame := 1000, markAt := 9999000000, marksRx := 9, goodMarks := 9, perP := 65536, perN := 16, boot := false
      lastRound := 5
      drive := { Drive.init with off := false, forceSpread := false, noWait := [], period := 3, periods := 100, planned := 200 } }) }

def onShed (k : Nat) (f : Shed → Shed) (s : State) : State := updShed k f s
def onDrive (k : Nat) (f : Drive → Drive) (s : State) : State := updShed k (fun d => { d with drive := f d.drive }) s
def onPower (f : Power → Power) (s : State) : State := { s with power := f s.power }
def onScene (f : Scene → Scene) (s : State) : State := { s with scene := f s.scene }
def onTherm (f : Thermal → Thermal) (s : State) : State := { s with therm := f s.therm }
def onStore (f : Store → Store) (s : State) : State := { s with store := f s.store }
def onNet (f : Net → Net) (s : State) : State := { s with net := f s.net }
def onFaults (f : Faults → Faults) (s : State) : State := { s with faults := f s.faults }
def down (k : Nat) (s : State) : State := updLink k (fun l => { l with trained := false }) s
/-- The yard's register `n` reads `v`. -/
def yr (n v : Nat) (s : State) : State := setReg yardDie n (BitVec.ofNat 32 v) s
/-- Page `p` is owned so, by session `n`. -/
def own (p : Nat) (o : Owner) (n : Nat) (s : State) : State := setOwn p { PageOwn.init with owner := o, session := n } s
/-- The write window is open. -/
def window (s : State) : State := setRegf yardDie R.thermSt 7 7 1 s

/-! The general conditions of a JHP command. -/

/-- The entry of a command that waits in a mailbox. -/
def asks (op : Nat) (p : List Byte) : Entry := ⟨77, op, 9, p.length, 0, p, .waiting⟩

/-- Session `n` is open with OWNER's privilege, and its mailbox holds the one entry. -/
def call (n op : Nat) (p : List Byte) (s : State) : State :=
  { updSess n (fun x => { x with isOpen := true, priv := .owner }) s with mbx := [(n, { Mailbox.init with queue := [asks op p] })] }

/-- No mailbox holds a waiting entry with an unknown opcode. -/
def knownAll (t : Table Mailbox) : Bool := t.all fun p => p.2.queue.all fun y => y.st != .waiting || knownOpcode y.opcode

theorem get_known (t : Table Mailbox) (h : knownAll t = true) (j : Nat) : ∀ y ∈ (Table.get Mailbox.init t j).queue,
    y.st = .waiting → knownOpcode y.opcode = true := by
  induction t with
  | nil => intro y hy; simp [Table.get, Table.find?, Mailbox.init] at hy
  | cons p r ih =>
    obtain ⟨k, m⟩ := p
    have h2 : knownAll r = true := by simp only [knownAll, List.all_cons, Bool.and_eq_true] at h ⊢; exact h.2
    have h1 : (m.queue.all fun y => y.st != .waiting || knownOpcode y.opcode) = true := by
      simp only [knownAll, List.all_cons, Bool.and_eq_true] at h; exact h.1
    by_cases e : k = j
    · intro y hy hw
      have hy' : y ∈ m.queue := by simpa [Table.get, Table.find?, e] using hy
      have := List.all_eq_true.1 h1 y hy'
      simpa [hw] using this
    · have : Table.get Mailbox.init ((k, m) :: r) j = Table.get Mailbox.init r j := by simp [Table.get, Table.find?, e]
      rw [this]; exact ih h2

/-- A command with payload `p` meets every condition of its statement: it is in turn, well put, and its guard holds. -/
def met (n op : Nat) (p : List Byte) (s : State) (len : Nat) (rsvd : List Byte → Bool) (priv : Nat) (guard : Entry → State → Prop) : Prop :=
  inTurn (call n op p s) n op (asks op p) ∧ wellPut (call n op p s) n (asks op p) len rsvd priv
    ∧ guard (asks op p) (begun 0 n (asks op p) (call n op p s))

theorem inTurn_of {s : State} {n op : Nat} {e : Entry} (h : (headEntry s n == some e && e.opcode == op && s.power.ready && (getSess s n).isOpen
    && mayBegin s n && !entryHeld s e && knownAll s.mbx) = true) : inTurn s n op e := by
  simp only [Bool.and_eq_true, beq_iff_eq, Bool.not_eq_true'] at h
  obtain ⟨⟨⟨⟨⟨⟨a, b⟩, c⟩, d⟩, f⟩, g⟩, k⟩ := h
  exact ⟨a, b, c, d, f, g, fun j => get_known s.mbx k j⟩

theorem met_of {n op len priv : Nat} {p : List Byte} {s : State} {rsvd : List Byte → Bool} {guard : Entry → State → Prop}
    (h : (let u := call n op p s
      headEntry u n == some (asks op p) && u.power.ready && (getSess u n).isOpen && mayBegin u n && !entryHeld u (asks op p) && knownAll u.mbx
        && p.length == len && decide (len ≤ 56) && rsvd p && decide (priv ≤ (getSess u n).priv.rank)) = true)
    (g : guard (asks op p) (begun 0 n (asks op p) (call n op p s))) : met n op p s len rsvd priv guard := by
  simp only [Bool.and_eq_true, beq_iff_eq, decide_eq_true_eq] at h
  obtain ⟨⟨⟨⟨⟨⟨⟨⟨⟨a, b⟩, c⟩, d⟩, e⟩, f⟩, i⟩, j⟩, k⟩, l⟩ := h
  exact ⟨inTurn_of (by simp only [a, b, c, d, e, f]; simp [asks]), ⟨i, j, Nat.zero_lt_two, k, l⟩, g⟩

theorem met_always {n op len priv : Nat} {p : List Byte} {s : State} {rsvd : List Byte → Bool}
    (h : (let u := call n op p s
      headEntry u n == some (asks op p) && u.power.ready && (getSess u n).isOpen && mayBegin u n && !entryHeld u (asks op p) && knownAll u.mbx
        && p.length == len && decide (len ≤ 56) && rsvd p && decide (priv ≤ (getSess u n).priv.rank)) = true) : met n op p s len rsvd priv always :=
  met_of h (by exact True.intro)

/-- The same where the guard speaks of the state before the command begins. -/
def fits (n op : Nat) (p : List Byte) (s : State) (len : Nat) (rsvd : List Byte → Bool) (priv : Nat) (guard : Entry → State → Prop) : Prop :=
  met n op p s len rsvd priv always ∧ guard (asks op p) (call n op p s)

theorem fits_of {n op len priv : Nat} {p : List Byte} {s : State} {rsvd : List Byte → Bool} {guard : Entry → State → Prop}
    (h : met n op p s len rsvd priv always) (g : guard (asks op p) (call n op p s)) : fits n op p s len rsvd priv guard := ⟨h, g⟩


/-! Sessions (10). -/

/-- The conditions of `SessionQueriesComplete`, clause by clause. -/
theorem witness_SessionQueries :
    met 15 0x0103 [] rdy 0 noRsvd 0 always
    ∧ met 15 0x0108 [] rdy 0 noRsvd 0 always
    ∧ met 0 0x0107 [0x3F, 0, 0, 0] rdy 4 (fun p => eventsOk 0 p && zeroAt 2 2 p) 0 always
    ∧ met 0 0x0106 [1, 0, 0, 0] rdy 4 (zeroAt 1 3) 0 (fun e b => u8 e.payload 0 < (getSess b 0).priv.rank) :=
  ⟨met_always (by decide +kernel), met_always (by decide +kernel), met_always (by decide +kernel),
    met_of (by decide +kernel) (by decide +kernel)⟩

/-- A nonce of level 1 that a challenge issued one second ago, and the right answer to it. -/
def challenged : State := onFaults (fun x => { x with crypto := true })
  (updSess 0 (fun x => { x with nonce := some ⟨[5], 1, 9000000000, [7]⟩ }) (setItem N.keys { NvItem.init with a := some ⟨1, 3 :: zeros 95, true⟩ } rdy))
def answer : List Byte := [1, 0, 0, 0] ++ hmac [7] (authMessage rdy 0 1 [5])

theorem witness_SessionAuthentication :
    met 0 0x0104 [1, 0, 0, 0] challenged 4 (zeroAt 1 3) 0
      (fun e b => (u8 e.payload 0 = 1 ∨ u8 e.payload 0 = 2) ∧ levelKeySet b (u8 e.payload 0) = true ∧ cryptoUp b = true
        ∧ authLocked b (u8 e.payload 0) = false)
    ∧ met 0 0x0105 answer challenged 36 (zeroAt 1 3) 0
      (fun e b => let v : Nonce := ⟨[5], 1, 9000000000, [7]⟩
        cryptoUp b = true ∧ liveNonce b (getSess b 0).nonce (u8 e.payload 0) = some v ∧ v.bytes ≠ []
        ∧ hmac v.key (authMessage b 0 (u8 e.payload 0) v.bytes) = slice e.payload 4 32 ∧ ¬ (u8 e.payload 0 = 2 ∧ ownerElsewhere b 0 = true)) :=
  ⟨met_of (by decide +kernel) (by decide +kernel), met_of (by decide +kernel) (by decide +kernel)⟩

/-- Pages up to the last that a host may hold, and 16 pages at once. -/
theorem witness_PageCommands :
    met 3 0x0110 [0xE0, 16, 0, 0] (own 0xEF .host 3 rdy) 4 (zeroAt 2 2) 0
      (fun e b => pagesBad e = false ∧ ∀ p ∈ pagesNamed e, freePage b p = true ∨ holds b 3 p = true)
    ∧ met 3 0x0111 [0xEF, 1, 0, 0] (own 0xEF .host 3 rdy) 4 (zeroAt 2 2) 0
      (fun e b => pagesBad e = false ∧ ∀ p ∈ pagesNamed e, holds b 3 p = true)
    ∧ met 3 0x0112 [0x10, 0, 0, 0] rdy 4 (zeroAt 1 3) 2
      (fun e b => freePage b (u8 e.payload 0) = true ∨ holds b 3 (u8 e.payload 0) = true)
    ∧ met 3 0x0113 [0x10, 0, 0, 0] (own 0x10 .locked 3 rdy) 4 (zeroAt 1 3) 2 (fun e b => (getOwn b (u8 e.payload 0)).owner = .locked) :=
  ⟨met_of (by decide +kernel) (by decide +kernel), met_of (by decide +kernel) (by decide +kernel),
    met_of (by decide +kernel) (by decide +kernel), met_of (by decide +kernel) (by decide +kernel)⟩

/-- Every session but the last is open; and a request over UDP waits. -/
def crowded : State := (List.range 15).foldl (fun s n => updSess n (fun x => { x with isOpen := true }) s) rdy
def remote : Source := .udp 0 0xC0A80009 777
def openReq : OpenReq := ⟨remote, 0, asks 0x0101 [0x70, 0x17, 63, 0]⟩
def asked : State := onNet (fun x => { x with opens := [openReq] }) crowded

theorem witness_SessionOpen :
    fits 0 0x0101 [10, 0, 63, 0] crowded 4 (eventsOk 2) 0
      (fun e s => (getSess s 0).src = .spit ∧ leaseBad (u16 e.payload 0) = false ∧ freeSession s = some 15)
    ∧ (remote ≠ .spit ∧ asked.net.opens.find? (fun r => decide (r.src = remote)) = some openReq ∧ opensHeld asked = false
      ∧ asked.power.ready = true ∧ openReq.entry.len = 4 ∧ openReq.entry.flags < 2 ∧ eventsOk 2 openReq.entry.payload = true
      ∧ sourceSession asked remote = none ∧ leaseBad (u16 openReq.entry.payload 0) = false ∧ freeSession asked = some 15) :=
  ⟨fits_of (met_always (by decide +kernel)) (by decide +kernel), by decide +kernel⟩

theorem witness_SessionEnd :
    met 15 0x0102 [] rdy 0 noRsvd 0 always
    ∧ (let s := updSess 15 (fun x => { x with isOpen := true, lease := 10, last := 9900000000 }) rdy;
      s.power.ready = true ∧ (getSess s 15).isOpen = true ∧ (getSess s 15).last + (getSess s 15).lease * 10000000 ≤ max s.now 0) :=
  ⟨met_always (by decide +kernel), by decide +kernel⟩

theorem witness_FunctionDrivers :
    met 3 0x0210 (zeros 31 ++ [0x80, 0, 0, 0, 0]) rdy 36 (zeroAt 33 3) 1 always
    ∧ met 3 0x0211 (zeros 31 ++ [0x80]) rdy 32 noRsvd 0 always :=
  ⟨met_always (by decide +kernel), met_always (by decide +kernel)⟩

/-! The general checks of JHP. -/

/-- A payload too short, a reserved field, and too low a privilege; and a command whose mailbox holds another. -/
theorem witness_GeneralChecks :
    (let s := call 3 0x0110 [0x90, 1, 0] rdy;
      inTurn s 3 0x0110 (asks 0x0110 [0x90, 1, 0]) ∧ (asks 0x0110 [0x90, 1, 0]).len ≠ fixed 4 [0x90, 1, 0])
    ∧ (let s := call 3 0x0110 [0x90, 1, 0, 1] rdy;
      inTurn s 3 0x0110 (asks 0x0110 [0x90, 1, 0, 1]) ∧ (asks 0x0110 [0x90, 1, 0, 1]).len = fixed 4 [0x90, 1, 0, 1] ∧ zeroAt 2 2 [0x90, 1, 0, 1] = false)
    ∧ (let s := updSess 3 (fun x => { x with priv := .operator }) (call 3 0x0112 [0x90, 0, 0, 0] rdy);
      inTurn s 3 0x0112 (asks 0x0112 [0x90, 0, 0, 0]) ∧ zeroAt 1 3 [0x90, 0, 0, 0] = true ∧ (getSess s 3).priv.rank < 2) :=
  ⟨⟨inTurn_of (by decide +kernel), by decide +kernel⟩, ⟨inTurn_of (by decide +kernel), by decide +kernel⟩,
    ⟨inTurn_of (by decide +kernel), by decide +kernel⟩⟩

theorem witness_JhpOutOfTurn :
    jhpForm (.pageTake 0 3) = some ⟨3, 0, 0x0110, fun _ => fixed 4, zeroAt 2 2, 0⟩
    ∧ (headEntry (call 3 0x0111 [] rdy) 3).map (·.opcode) ≠ some 0x0110 := ⟨rfl, by decide +kernel⟩

/-! Scenes, patterns, functions and lamp temperature (05 to 09). -/

/-- The start of a stored image that fits every variant. -/
def magic : List Byte := [0x5A, 0x53, 0x43, 0x4E] ++ zeros 28
def stored (i : Nat) (s : State) : State := setItem i { NvItem.init with a := some ⟨1, magic, true⟩ } s

/-- A FULL image with one empty section, in the last bulk page. -/
def imgBody : List Byte := [6, 0, 0xFF, 0, 76, 0, 0, 0, 0, 0, 0, 0]
def img : List Byte :=
  [0x5A, 0x53, 0x43, 0x4E, 1, 0, 1, 0, 0, 1, 0, 0, 76, 0, 0, 0, 5, 0, 0, 0] ++ sha256 imgBody ++ zeros 12 ++ imgBody
def withImg (s : State) : State := { s with win := { s.win with mem := Table.putAll 0 s.win.mem (4096 * 0xEF) img } }

theorem witness_SceneCommands :
    met 0 0x0201 [1, 0, 0, 0, 3, 0x40, 1, 1, 9, 0, 0, 0] (own 0x2E .host 0 rdy) 12 commitRsvd 1
      (fun e b =>
        let held := heldPages b 0 (namedPages (u8 e.payload 6 % 32) (u8 e.payload 5) (u8 e.payload 4))
        (commitChecks 0 e.payload held (commitOpen b 0) (pagesToDevice 0 held b)).isRight = true)
    ∧ met 0 0x0202 [16, 0x7F, 0, 0, 1, 0, 0, 0] (stored 16 rdy) 8 (zeroAt 2 2) 1
      (fun e b => 1 ≤ u8 e.payload 0 ∧ u8 e.payload 0 ≤ 16 ∧ u32 e.payload 4 ≠ 0 ∧ pickCopy b (u8 e.payload 0) (imageFits b) = some (0, magic)
        ∧ commitOpen b 0 = false ∧ absentIn b (u8 e.payload 1) = false ∧ safeOn b = false ∧ b.power.entry = none)
    ∧ met 0 0x0203 [1, 0x40, 3, 0] (own 0x2E .host 0 rdy) 4 (fun p => u8 p 3 == 0 && u8 p 0 / 32 == 0) 0
      (fun e b => u8 e.payload 0 ≠ 0 ∧ ¬ (pVal (u8 e.payload 0) = true ∧ 3 < u8 e.payload 2) ∧ absentIn b (u8 e.payload 1) = false
        ∧ ∀ p ∈ namedPages (u8 e.payload 0) (u8 e.payload 1) (u8 e.payload 2), holds b 0 p = true)
    ∧ met 0 0x0204 [0xEF, 1, 0, 0] (own 0xEF .host 0 (withImg (window rdy))) 4 (zeroAt 2 2) 2
      (fun e b => let pages := [0xEF]
        pages = (List.range (u8 e.payload 1)).map (u8 e.payload 0 + ·) ∧ pages ≠ [] ∧ (∀ p ∈ pages, bulkPage p = true)
        ∧ nvOpen b = true ∧ (∀ p ∈ pages, holds b 0 p = true)
        ∧ (let all := pages.flatMap fun p => readPage b p 0 4096
          (∀ p ∈ pages, pageBad b p = false) ∧ 64 ≤ u32 all 12 ∧ u32 all 12 ≤ 4096 * u8 e.payload 1 ∧ img = all.take (u32 all 12)
          ∧ sha256 (img.drop 64) = slice img 20 32 ∧ badHeader b img = false ∧ imageRsvd b img = false
          ∧ ¬ (u8 img 6 = 1 ∧ badFull b img = true))) :=
  ⟨met_of (by decide +kernel) (by decide +kernel), met_of (by decide +kernel) (by decide +kernel),
    met_of (by decide +kernel) (by decide +kernel), met_of (by decide +kernel) (by decide +kernel)⟩

/-- Function 6 of site 5 of shed 1 has failed. -/
def failed (s : State) : State :=
  updFn 6 (fun x => { x with st := 1 }) (onScene (fun x => { x with applied := [(1, [(A.attr + 5, BitVec.ofNat 64 (2^15 + 6))])] }) s)

/-- A commit round runs, which holds the WRITEs outside it. -/
def cm : Commit := ⟨.host, 0, 44, 9, 7, none, 5, [.value 3 9], [0x10]⟩
def rnd : Round :=
  { id := 7, commits := [], lapses := [], values := [], edits := [], after := [], sheds := [0, 1, 2], away := false, words := []
    prepared := [0, 1, 2], ok := [0], second := [], preparedAt := 9990000000, safe := false, restore := false, boot := false, redo := [] }
def inRound (r : Round) (s : State) : State := onScene (fun x => { x with round := some r }) s

/-- The last engine of the last shed, the last trigger, and the last 14 engines. -/
theorem witness_PatternCommands :
    met 0 0x0301 (zeros 13 ++ [0x80, 0, 0]) (own 0x87 .host 0 (own 0x88 .host 0 rdy)) 16 (fun p => u8 p 14 / 2 == 0 && u8 p 15 == 0) 2
      (fun e b =>
        let engines := maskList e.payload 0 112
        let trig := (u8 e.payload 14).testBit 0
        let named := (engines.map (0x50 + · / 2)).eraseDups ++ (if trig then [0x88] else [])
        heldPages b 0 named = named ∧ (∀ g ∈ engines, isPresent b (g / 16) = true)
        ∧ (∀ g ∈ engines, progRsvd (blockWords b g) = false ∧ badProgram (blockWords b g) = false)
        ∧ (trig = true → trigRsvd (readPage b 0x88 0 1048) = false ∧ badTrig (nSheds b) (readPage b 0x88 0 1048) = false)
        ∧ (∀ p ∈ named, pageBad b p = false) ∧ safeOn b = false ∧ b.power.entry = none)
    ∧ met 0 0x0302 (zeros 13 ++ [0x80, 1, 0, 0xEA, 3, 0, 0]) rdy 20 (fun p => u8 p 14 / 2 == 0 && u8 p 15 == 0) 1
      (fun e b => absentEngine b (maskList e.payload 0 112) = false ∧ safeOn b = false)
    ∧ met 0 0x0303 (zeros 13 ++ [0x80, 3, 0, 0xEA, 3, 0, 0]) rdy 20 (fun p => u8 p 14 / 4 == 0 && u8 p 15 == 0) 1
      (fun e b => absentEngine b (maskList e.payload 0 112) = false ∧ safeOn b = false)
    ∧ met 0 0x0305 (zeros 13 ++ [0x80, 0, 0]) rdy 16 (zeroAt 14 2) 1 (fun e b => absentEngine b (maskList e.payload 0 112) = false)
    ∧ met 0 0x0304 [63, 1, 0, 0, 0xEA, 3, 0, 0] rdy 8 (fun p => u8 p 1 / 2 == 0 && zeroAt 2 2 p) 1
      (fun e b => u8 e.payload 0 ≤ 63 ∧ safeOn b = false)
    ∧ met 0 0x0306 [98, 14, 0, 0] rdy 4 (zeroAt 2 2) 0
      (fun e b => 1 ≤ u8 e.payload 1 ∧ u8 e.payload 1 ≤ 14 ∧ u8 e.payload 0 + u8 e.payload 1 ≤ 112
        ∧ ∀ i < u8 e.payload 1, isPresent b ((u8 e.payload 0 + i) / 16) = true) :=
  ⟨met_of (by decide +kernel) (by decide +kernel), met_of (by decide +kernel) (by decide +kernel), met_of (by decide +kernel) (by decide +kernel),
    met_of (by decide +kernel) (by decide +kernel), met_of (by decide +kernel) (by decide +kernel), met_of (by decide +kernel) (by decide +kernel)⟩

/-- A capture's conditions but those of the outputs: it fits, and none runs. -/
def captureFits (e : Entry) (b : State) : Prop :=
  let k := u8 e.payload 0
  let d := getShed b k
  b.lt.capture = none ∧ u8 e.payload 1 ≤ 1 ∧ u8 e.payload 4 ≤ 128 ∧ 256 ≤ u16 e.payload 6 ∧ u16 e.payload 6 ≤ 4095
  ∧ sitesOk b k (u16 e.payload 2) (u8 e.payload 4) = true
  ∧ ∀ j < u8 e.payload 4,
      let r := rowSpan d.perP (rowsOf d.cfg) (10 * cf d.cfg R.dimCfg 31 25) (rowOf (u16 e.payload 2 + j))
      r.1 + 300 ≤ r.2
def capOrder : List Byte := [6, 1, 0xFF, 7, 1, 0, 0xFF, 0x0F]

/-- Up to the last site of the last shed. -/
theorem witness_LampCommands :
    met 0 0x0401 [6, 0, 0, 0] (failed rdy) 4 (zeroAt 1 3) 0
      (fun e b =>
        let f := u8 e.payload 0
        ((getFn b f).holder = .session 0 ∨ (getSess b 0).priv = .owner) ∧ (getFn b f).st = 1 ∧ b.therm.retest = none ∧ outputsAllowed b = true
        ∧ ∀ k ∈ present b, ∀ i ∈ sitesOf (applied b k) f, shedServing b k = true ∧ offFault b k i = false
          ∧ ¬ (drivable (getShed b k).cfg i = true ∧ retestTight b k i = true))
    ∧ met 0 0x0410 [6, 7, 0xF9, 7] rdy 4 noRsvd 0 (fun e b => u8 e.payload 1 ≤ 7 ∧ sitesOk b (u8 e.payload 0) (u16 e.payload 2) (u8 e.payload 1) = true)
    ∧ met 0 0x0411 capOrder rdy 8 (zeroAt 5 1) 2
      (fun e b => captureFits e b ∧ (shedServing b (u8 e.payload 0) = true ∧ outputsAllowed b = true) ∧ writesHeld b = false)
    ∧ met 0 0x0411 capOrder (inRound rnd rdy) 8 (zeroAt 5 1) 2
      (fun e b => captureFits e b ∧ (shedServing b (u8 e.payload 0) = true ∧ outputsAllowed b = true) ∧ writesHeld b = true)
    ∧ met 0 0x0411 capOrder (down 6 rdy) 8 (zeroAt 5 1) 2
      (fun e b => captureFits e b ∧ ¬ (shedServing b (u8 e.payload 0) = true ∧ outputsAllowed b = true))
    ∧ met 0 0x0412 [6, 52, 0xCC, 7] rdy 4 noRsvd 0
      (fun e b => u8 e.payload 1 ≤ 52 ∧ sitesOk b (u8 e.payload 0) (u16 e.payload 2) (u8 e.payload 1) = true)
    ∧ met 0 0x0413 [6, 0, 0xFF, 7, 1, 0, 0, 0] { window rdy with lt := { rdy.lt with held := true } } 8 (fun p => zeroAt 1 1 p && zeroAt 6 2 p) 2
      (fun e b => sitesOk b (u8 e.payload 0) (u16 e.payload 2) (u16 e.payload 4) = true ∧ b.lt.held = true ∧ nvOpen b = true)
    ∧ met 0 0x0414 [0xEF, 6, 0xFF, 7, 1, 0, 0, 0] (own 0xEF .host 0 (window rdy)) 8 (zeroAt 6 2) 2
      (fun e b => u16 e.payload 4 ≤ 512 ∧ sitesOk b (u8 e.payload 1) (u16 e.payload 2) (u16 e.payload 4) = true
        ∧ holds b 0 (u8 e.payload 0) = true ∧ nvOpen b = true ∧ pageBad b (u8 e.payload 0) = false
        ∧ (pageWords b (u8 e.payload 0) 0 (u16 e.payload 4)).all (fun w => dfld w 10 0 == 0) = true) :=
  ⟨met_of (by decide +kernel) (by decide +kernel), met_of (by decide +kernel) (by decide +kernel),
    met_of (by decide +kernel) (by unfold captureFits; decide +kernel), met_of (by decide +kernel) (by unfold captureFits; decide +kernel),
    met_of (by decide +kernel) (by unfold captureFits; decide +kernel), met_of (by decide +kernel) (by decide +kernel),
    met_of (by decide +kernel) (by decide +kernel), met_of (by decide +kernel) (by decide +kernel)⟩

theorem witness_ThermClear :
    fits 0 0x0501 [] (onPower (fun p => { p with mode := .coldWait }) rdy) 0 noRsvd 1
      (fun _ s => inCold s = true ∧ (tjMax s).1 < shutdownT s - shutdownHys s ∧ s.power.tripped.toNat = 0) :=
  fits_of (met_always (by decide +kernel)) (by decide +kernel)

/-! The Logbook and the Tack Room (14). -/

theorem witness_LogCommands :
    met 0 0x0601 [3, 0, 0, 0, 9, 0, 0, 0] rdy 8 (zeroAt 1 3) 0 (fun e _ => u8 e.payload 0 ≤ 3)
    ∧ met 0 0x0602 [0xEF, 127, 3, 0] (own 0xEF .host 0 rdy) 4 (zeroAt 3 1) 0
      (fun e b => 1 ≤ u8 e.payload 1 ∧ u8 e.payload 1 ≤ 127 ∧ u8 e.payload 2 ≤ 3
        ∧ (u8 e.payload 0 = 2 ∨ (bulkPage (u8 e.payload 0) = true ∧ holds b 0 (u8 e.payload 0) = true)))
    ∧ met 0 0x0605 [9, 0, 0, 0] rdy 4 noRsvd 1 always
    ∧ met 0 0x0606 [0x7F, 1, 1, 0, 1, 1] rdy (4 + 2 * [(383, 0x0101)].length) (zeroAt 3 1) 2
      (fun e _ => let r := [(383, 0x0101)]
        u8 e.payload 2 = r.length ∧ rateEntries e.payload = r ∧ u16 e.payload 0 + r.length ≤ 384 ∧ ∀ x ∈ r, badRate x.1 (x.2 / 256) = false)
    ∧ met 0 0x0610 [0xEF, 0, 0xF0, 3] (own 0xEF .host 0 rdy) 4 (zeroAt 1 1) 0
      (fun e b => u16 e.payload 2 ≤ 1008 ∧ holdsBulk b 0 (u8 e.payload 0) = true)
    ∧ met 0 0x0620 [255, 0, 0, 0] (window rdy) 4 (zeroAt 1 3) 2 (fun _ b => nvOpen b = true) :=
  ⟨met_of (by decide +kernel) (by decide +kernel), met_of (by decide +kernel) (by decide +kernel), met_always (by decide +kernel),
    met_of (by decide +kernel) (by decide +kernel), met_of (by decide +kernel) (by decide +kernel), met_of (by decide +kernel) (by decide +kernel)⟩

theorem witness_LogWrites :
    met 0 0x0603 [] (onPower (fun p => { p with hotTrip := true }) rdy) 0 noRsvd 1 (fun _ b => writesWait b = true)
    ∧ met 0 0x0603 [] rdy 0 noRsvd 1 (fun _ b => writesWait b = false)
    ∧ fits 0 0x0604 [] rdy 0 noRsvd 2 (fun _ s => inCold s = false ∧ flushHeld s = false) :=
  ⟨met_of (by decide +kernel) (by decide +kernel), met_of (by decide +kernel) (by decide +kernel),
    fits_of (met_always (by decide +kernel)) (by decide +kernel)⟩

/-! The Paddock engines (13). -/

/-- An image of one NOP for lane 7, in the last bulk page; and engine 1 with every lane defined, for any privilege. -/
def pkImg : List Byte := [0x4B, 0x50, 1, 0x80, 1, 0] ++ zeros 67 ++ [0x40]
def withPk (s : State) : State := own 0xEF .host 0 { s with win := { s.win with mem := Table.putAll 0 s.win.mem (4096 * 0xEF) pkImg } }
def lanes (s : State) : State := setPk 1 { PkEngine.init with length := 512, lanes := 0xFF } s

theorem witness_PaddockPrograms :
    met 0 0x0701 [1, 0xEF, 0, 0] (withPk rdy) 4 (zeroAt 2 2) 2
      (fun e b => u8 e.payload 0 ≤ 1 ∧ bulkPage (u8 e.payload 1) = true ∧ holds b 0 (u8 e.payload 1) = true
        ∧ (∀ g ∈ lanesOf (u8 e.payload 0), (getLane b g).st = .stopped) ∧ pkCheck (pkImage b (u8 e.payload 1)) = none
        ∧ pageBad b (u8 e.payload 1) = false)
    ∧ met 0 0x0702 [1, 0xEF, 0, 0] (withPk (window rdy)) 4 (zeroAt 2 2) 2
      (fun e b => u8 e.payload 0 ≤ 1 ∧ bulkPage (u8 e.payload 1) = true ∧ holds b 0 (u8 e.payload 1) = true ∧ nvOpen b = true
        ∧ pkCheck (pkImage b (u8 e.payload 1)) = none ∧ pageBad b (u8 e.payload 1) = false)
    ∧ met 0 0x0703 (zeros 46 ++ [0x80, 0xFF]) rdy 48 pinsOk 2
      (fun e b =>
        (∀ i < 24, u16 e.payload (2 * i) ≠ pinEntry b i → pinRuns b (u16 e.payload (2 * i)) = false ∧ pinRuns b (pinEntry b i) = false)
        ∧ badPins ((List.range 12).foldl (fun t w => withReg t (R.pkPinmap + w) (u32 e.payload (4 * w))) b.regs) = false)
    ∧ met 0 0x0706 [1, 0, 0, 0] (lanes rdy) 4 (zeroAt 1 3) 1
      (fun e b => u8 e.payload 0 ≤ 1
        ∧ ∀ g ∈ lanesOf (u8 e.payload 0), laneDefined b g = true → entryUse (laneEntry b g) ≤ (getSess b 0).priv.rank) :=
  ⟨met_of (by decide +kernel) (by decide +kernel), met_of (by decide +kernel) (by decide +kernel),
    met_of (by decide +kernel) (by decide +kernel), met_of (by decide +kernel) (by decide +kernel)⟩

/-- A queue that the push fills to its 256 words. -/
theorem witness_PaddockLanes :
    met 0 0x0704 [1, 0xFF, 0, 0] (lanes rdy) 4 (zeroAt 2 2) 1 (fun e b => u8 e.payload 0 ≤ 1
      ∧ ∀ g ∈ namedLanes e, laneDefined b g = true ∧ entryUse (laneEntry b g) ≤ (getSess b 0).priv.rank)
    ∧ met 0 0x0705 [1, 0xFF, 0, 0] (lanes rdy) 4 (zeroAt 2 2) 1 (fun e b => u8 e.payload 0 ≤ 1
      ∧ ∀ g ∈ namedLanes e, laneDefined b g = true ∧ entryUse (laneEntry b g) ≤ (getSess b 0).priv.rank)
    ∧ met 0 0x0707 ([15, 12, 0, 0] ++ zeros 48) (setLane 15 { Lane.init with txq := List.replicate 244 0 } (lanes rdy)) (4 + 4 * 12) (zeroAt 2 2) 1
      (fun e b => u8 e.payload 1 = 12 ∧ u8 e.payload 0 ≤ 15
        ∧ (laneDefined b (u8 e.payload 0) = true ∧ entryUse (laneEntry b (u8 e.payload 0)) ≤ (getSess b 0).priv.rank)
        ∧ (getLane b (u8 e.payload 0)).txq.length + 12 ≤ 256)
    ∧ met 0 0x0708 [15, 12, 0, 0] (lanes rdy) 4 (zeroAt 2 2) 1
      (fun e b => u8 e.payload 0 ≤ 15 ∧ 1 ≤ u8 e.payload 1 ∧ u8 e.payload 1 ≤ 12
        ∧ laneDefined b (u8 e.payload 0) = true ∧ entryUse (laneEntry b (u8 e.payload 0)) ≤ (getSess b 0).priv.rank)
    ∧ met 0 0x0709 [15, 0, 0, 0] (lanes rdy) 4 (zeroAt 1 3) 0 (fun e b => u8 e.payload 0 ≤ 15 ∧ laneDefined b (u8 e.payload 0) = true) :=
  ⟨met_of (by decide +kernel) (by decide +kernel), met_of (by decide +kernel) (by decide +kernel), met_of (by decide +kernel) (by decide +kernel),
    met_of (by decide +kernel) (by decide +kernel), met_of (by decide +kernel) (by decide +kernel)⟩

/-! The SPI controller ports and the window (12). -/

/-- Binding 3 of port 2, and binding 0 of port 0, enabled with words of 8 bits. -/
def bound (s : State) : State := yr (fmtReg 0 0) 0x83A00000 (yr (fmtReg 2 3) 0x83A00000 s)

theorem witness_SpiPorts :
    met 0 0x0801 [14, 0, 0, 0, 0, 0, 0, 0xFF, 0, 0, 0xA0, 3] rdy 12 configOk 1
      (fun e b => (bindSel e < 4 ∨ (getSess b 0).priv = .owner) ∧ bindPort e ≠ 3 ∧ bindBusy b (bindPort e) (bindSel e) = false
        ∧ badSerial (withReg (withReg b.regs (timReg (bindPort e) (bindSel e)) (u32 e.payload 4)) (fmtReg (bindPort e) (bindSel e))
            (u32 e.payload 8)) = false)
    ∧ met 0 0x0805 [2, 0, 0, 0] rdy 4 (zeroAt 1 3) 0 (fun e _ => u8 e.payload 0 ≤ 2)
    ∧ met 0 0x0810 [0, 0, 0, 2] rdy 4 (fun p => u8 p 0 % 16 == 0) 2
      (fun e b => b.xip.copy = none ∧ badSerial (withReg b.regs R.xipCfg (u32 e.payload 0)) = false)
    ∧ fits 0 0x0804 [2, 0, 0, 0] rdy 4 (zeroAt 1 3) 2 (fun e _ => u8 e.payload 0 ≤ 2) :=
  ⟨met_of (by decide +kernel) (by decide +kernel), met_of (by decide +kernel) (by decide +kernel),
    met_of (by decide +kernel) (by decide +kernel), fits_of (met_always (by decide +kernel)) (by decide +kernel)⟩

theorem witness_SpiTransfers :
    met 0 0x0802 ([14, 0, 52, 0] ++ zeros 52) (bound rdy) 56 (fun p => bindOk p && u8 p 1 < 2 && zeroAt 3 1 p) 1
      (fun e b => 56 = xferLen b e.payload ∧ xferRefusal b 0 e (u8 e.payload 2) (52 / payloadWord b e.payload) false none = none)
    ∧ met 0 0x0803 [14, 0, 0xEF, 0, 0, 0, 0, 0x10] (own 0xEF .host 0 (bound rdy)) 8 (fun p => bindOk p && u8 p 1 < 2 && zeroAt 3 1 p) 1
      (fun e b =>
        let w := payloadWord b e.payload
        xferRefusal b 0 e (u16 e.payload 6) (4096 / w) (u16 e.payload 4 + u16 e.payload 6 * w > 4096) (some (u8 e.payload 2)) = none)
    ∧ met 0 0x0811 [0, 0xF0, 0xFF, 0, 0xEF, 0, 0, 0, 0, 0x10, 0, 0] (own 0xEF .host 0 (yr R.xipCfg 0x80000000 (bound rdy))) 12
      (fun p => zeroAt 5 1 p && zeroAt 10 2 p) 1
      (fun e b => yf b R.xipCfg 31 31 = 1 ∧ 1 ≤ u16 e.payload 8 ∧ u16 e.payload 8 ≤ 4096 ∧ u16 e.payload 6 + u16 e.payload 8 ≤ 4096
        ∧ u32 e.payload 0 + u16 e.payload 8 ≤ 0x1000000 ∧ holds b 0 (u8 e.payload 4) = true ∧ (getSpim b 0).frame = none ∧ b.xip.copy = none) :=
  ⟨met_of (by decide +kernel) (by decide +kernel), met_of (by decide +kernel) (by decide +kernel), met_of (by decide +kernel) (by decide +kernel)⟩

/-! CAN (11). -/

/-- A session that holds the last bulk page, empty, and asks for it as the map of controller 1. -/
def mapPage : State := own 0xEF .host 0 rdy
def mapCall : State := call 0 0x0901 [1, 0xEF, 0, 0] mapPage

theorem u8_zeros (n i : Nat) : u8 (zeros n) i = 0 := by
  simp only [u8, zeros, List.getD_eq_getElem?_getD, List.getElem?_replicate]
  split <;> rfl

theorem words32_zeros (n m : Nat) : words32 (zeros n) m = List.replicate m 0 := by
  simp [words32, u32, u16, u8_zeros] <;> exact List.eq_replicate_iff.2 ⟨by simp, by simp⟩

theorem mapCall_page : readPage mapCall 0xEF 0 1024 = zeros 1024 := by decide +kernel

theorem mapCall_words : mapWords mapCall 0xEF = List.replicate 256 0 := by rw [mapWords, mapCall_page, words32_zeros]

theorem witness_CanCommands :
    met 0 0x0902 [1, 0, 0, 0] (setCan 1 { getCan rdy 1 with bus := 2, held := true } rdy) 4 (zeroAt 1 3) 1
      (fun e b => u8 e.payload 0 ≤ 1 ∧ (getCan b (u8 e.payload 0)).bus = 2)
    ∧ met 0 0x0901 [1, 0xEF, 0, 0] mapPage 4 (zeroAt 2 2) 2 always
    ∧ (1 ≤ 1 ∧ bulkPage 0xEF = true ∧ holds mapCall 0 0xEF = true ∧ mapReserved (mapWords mapCall 0xEF) = false
      ∧ badNet (withMap mapCall.regs 1 (mapWords mapCall 0xEF)) = false) :=
  ⟨met_of (by decide +kernel) (by decide +kernel), met_always (by decide +kernel), by rw [mapCall_words]; decide +kernel⟩

/-! Firmware, configuration and keys (16, 17). -/

/-- An install of session 0; and one whose slot holds, whole, an image that passes: the shipped one, with a header of no body. -/
def installing (x : Install) (s : State) : State := onStore (fun y => { y with install := some x }) (onPower (fun p => { p with mode := .update }) s)
def begunInstall : Install := ⟨0, 4, [], false⟩
def wholeInstall : Install := ⟨0, Config.shippedVersion.toNat, [0], false⟩
def imageHeader : List Byte := [0x57, 0x46, 0x58, 0x4A, 1, 0, 0, 1]
def whole (s : State) : State :=
  installing wholeInstall (setSlot 1 { FwSlot.init with shipped := true, image := Table.putAll 0 [] 0 imageHeader }
    (onFaults (fun x => { x with crypto := true }) s))

theorem finishFault_none {s : State} {x : Install} (h1 : x.blocks.contains 0 = true) (h2 : headOk (imageHead (slotOf s (inactive s))) = true)
    (h3 : ((List.range ((256 + imageLength (slotOf s (inactive s)) + 4095) / 4096)).any fun b => !x.blocks.contains b) = false)
    (h4 : imageFault s (slotOf s (inactive s)) = none) (h5 : imageVersion (slotOf s (inactive s)) = x.version) : finishFault s x = none := by
  simp only [finishFault]
  rw [h1, h2, h3, h4, h5]
  simp

theorem witness_FirmwareCommands :
    met 0 0x0A01 [] rdy 0 noRsvd 0 always
    ∧ fits 0 0x0A02 [4, 0, 0, 0] rdy 4 noRsvd 2 (fun _ s => s.power.mode ≠ .update ∧ inCold s = false ∧ s.power.fail = none ∧ nvOpen s = true
      ∧ s.power.entry = none ∧ (getDet s 0x19).raised = false)
    ∧ met 0 0x0A03 [0xEF, 0, 0xFE, 1] (installing begunInstall (own 0xEF .host 0 rdy)) 4 (zeroAt 1 1) 2
      (fun e b => ownInstall b 0 = some begunInstall ∧ u16 e.payload 2 ≤ 510 ∧ bulkPage (u8 e.payload 0) = true ∧ holds b 0 (u8 e.payload 0) = true)
    ∧ met 0 0x0A04 [] (whole rdy) 0 noRsvd 2 always
    ∧ (let s := call 0 0x0A04 [] (whole rdy); ownInstall s 0 = some wholeInstall ∧ cryptoUp s = true ∧ finishFault s wholeInstall = none)
    ∧ fits 0 0x0A05 [] (installing begunInstall rdy) 0 noRsvd 2 (fun _ s => ownInstall s 0 = some begunInstall)
    ∧ met 0 0x0A07 [] rdy 0 noRsvd 2 (fun _ b => nvOpen b = true ∧ u16 (keyBase b) 2 ≤ imageSvn (slotOf b b.store.active)) :=
  ⟨met_always (by decide +kernel), fits_of (met_always (by decide +kernel)) (by decide +kernel), met_of (by decide +kernel) (by decide +kernel),
    met_always (by decide +kernel), ⟨rfl, by decide +kernel,
      finishFault_none (by decide +kernel) (by decide +kernel) (by decide +kernel) (by decide +kernel) rfl⟩,
    fits_of (met_always (by decide +kernel)) (by decide +kernel), met_of (by decide +kernel) (by decide +kernel)⟩

theorem witness_ConfigurationCommands :
    met 0 0x0A10 (le 2 R.curve ++ [255, 14]) rdy 4 noRsvd 0 (fun e b => runBad b 14 e = false)
    ∧ met 0 0x0A12 [] rdy 0 noRsvd 2 (fun _ b => nvOpen b = true)
    ∧ met 0 0x0A20 [0xEF, 0, 0, 0] (own 0xEF .host 0 rdy) 4 (zeroAt 1 3) 0 (fun e b => bulkPage (u8 e.payload 0) = true ∧ holds b 0 (u8 e.payload 0) = true)
    ∧ met 0 0x0B04 [6, 1, 0, 0] rdy 4 (fun p => u8 p 1 / 2 == 0 && zeroAt 2 2 p) 0
      (fun e b => isPresent b (u8 e.payload 0) = true ∧ (u8 e.payload 1 = 1 → 1 ≤ (getSess b 0).priv.rank)) :=
  ⟨met_of (by decide +kernel) (by decide +kernel), met_of (by decide +kernel) (by decide +kernel),
    met_of (by decide +kernel) (by decide +kernel), met_of (by decide +kernel) (by decide +kernel)⟩

/-- A key in clear with its check; a wrapped key, under a nonce one second old; and the state of the store and the engine. -/
def newKey : List Byte := List.replicate 32 7
def clearKey : List Byte := [1, 0, 0, 0] ++ newKey ++ (hmac newKey (uidBytes rdy ++ le 1 1)).take 16
def keyNonce : Nonce := ⟨[5], 0, 9000000000, []⟩
def unwrapped : List Byte := hmac (zeros 32) ([5] ++ uidBytes rdy ++ le 1 2)
def wrappedKey : List Byte := [2, 1, 0, 0] ++ zeros 32 ++ (hmac unwrapped (uidBytes rdy ++ le 1 2)).take 16
def keyReady : State := onFaults (fun x => { x with crypto := true }) (updSess 0 (fun x => { x with keyNonce := some keyNonce }) rdy)

theorem witness_KeyCommands :
    met 0 0x0A21 [] rdy 0 noRsvd 2 (fun _ b => (getDet b 0x19).raised = false)
    ∧ met 0 0x0A23 [] rdy 0 noRsvd 0 always
    ∧ met 0 0x0A22 clearKey keyReady 52 (zeroAt 2 2) 0
      (fun e b => u8 e.payload 1 = 0 ∧ (u8 e.payload 0 = 1 ∨ u8 e.payload 0 = 2) ∧ nvOpen b = true ∧ (0 : Fin 16) = 0
        ∧ (u8 (keyBase b) 0).testBit 1 = false ∧ cryptoUp b = true ∧ (slice e.payload 4 32).all (· == 0) = false
        ∧ (hmac (slice e.payload 4 32) (uidBytes b ++ le 1 (u8 e.payload 0))).take 16 = slice e.payload 36 16)
    ∧ met 0 0x0A22 wrappedKey keyReady 52 (zeroAt 2 2) 0
      (fun e b => let v := keyNonce
        let key := List.zipWith (· ^^^ ·) (slice e.payload 4 32) (hmac (ownKey b) (v.bytes ++ uidBytes b ++ le 1 (u8 e.payload 0)))
        u8 e.payload 1 = 1 ∧ (u8 e.payload 0 = 1 ∨ u8 e.payload 0 = 2) ∧ nvOpen b = true ∧ (getSess b 0).priv = .owner
        ∧ liveNonce b (getSess b 0).keyNonce 0 = some v ∧ v.bytes ≠ [] ∧ cryptoUp b = true ∧ key.all (· == 0) = false
        ∧ (hmac key (uidBytes b ++ le 1 (u8 e.payload 0))).take 16 = slice e.payload 36 16)
    ∧ met 0 0x0A22 ([1, 2] ++ zeros 50) rdy 52 (zeroAt 2 2) 0
      (fun e b => u8 e.payload 1 = 2 ∧ u8 e.payload 0 = 1 ∧ nvOpen b = true ∧ (getSess b 0).priv = .owner ∧ zeroAt 4 48 e.payload = true) :=
  ⟨met_of (by decide +kernel) (by decide +kernel), met_always (by decide +kernel), met_of (by decide +kernel) (by decide +kernel),
    met_of (by decide +kernel) (by decide +kernel), met_of (by decide +kernel) (by decide +kernel)⟩

/-- Thirteen registers, each at the least value it may have. -/
theorem witness_ConfigurationWrite :
    met 0 0x0A11 (le 2 R.curve ++ [255, 13] ++ (List.range 13).flatMap fun _ => [0, 0x20, 0, 0x20]) rdy (4 + 4 * 13) noRsvd 1
      (fun e b =>
        let die := u8 e.payload 2
        u8 e.payload 3 = 13 ∧ runBad b 13 e = false ∧ (regRun e).findSome? (writeRefusal (getSess b 0).priv.rank) = none
        ∧ (cfgValues e).any valueRsvd = false ∧ (b.xip.copy = none ∨ R.xipBank ∉ regRun e)
        ∧ badConfig (nSheds b) (forAll (cfgValues e) (fun p s => clearStatus die p (writeReg die p.1 p.2 s)) b).regs = false) :=
  met_of (by decide +kernel) (by decide +kernel)

/-! Faults and resets commanded by the host (02, 15). -/

/-- Detector `n` is raised in the dies of a mask. -/
def raised (n d : Nat) (s : State) : State := setDet n { Det.init with raised := true, dies := BitVec.ofNat 8 d, inc := 7 } s

theorem witness_FaultCommands :
    met 0 0x0B01 [19, 13, 0, 0] rdy 4 (zeroAt 2 2) 0
      (fun e _ => 1 ≤ u8 e.payload 1 ∧ u8 e.payload 1 ≤ 13 ∧ u8 e.payload 0 + u8 e.payload 1 ≤ 32)
    ∧ fits 0 0x0B02 [0x1F, 0x80, 0, 0] (raised 0x1F 0x81 rdy) 4 (zeroAt 2 2) 1 (fun e s =>
      let det := u8 e.payload 0
      let dies := clearDies s det (u8 e.payload 1)
      s.scene.round = none ∧ det ≤ 31 ∧ u8 e.payload 1 / 2 ^ (nSheds s + 1) = 0 ∧ clearRank (effClass s det) ≤ (getSess s 0).priv.rank ∧ dies ≠ []
      ∧ dies.findSome? (clearReason (atTime 0 s) det) = none)
    ∧ met 0 0x0B03 [5, 2, 6, 0, 8, 0, 0, 0] rdy 8 (fun p => zeroAt 3 1 p && zeroAt 6 2 p) 2
      (fun e b => runRefusal b = none ∧ safeOn b = false ∧ shutdownOn b = false ∧ b.faults.injection = none
        ∧ injectBad b (u8 e.payload 0) (u8 e.payload 1) (u8 e.payload 2) (u16 e.payload 4) = false
        ∧ u8 e.payload 0 ≠ 1 ∧ u8 e.payload 0 ≠ 6) :=
  ⟨met_of (by decide +kernel) (by decide +kernel), fits_of (met_always (by decide +kernel)) (by decide +kernel),
    met_of (by decide +kernel) (by decide +kernel)⟩

theorem witness_ResetCommands :
    met 0 0x0A30 [] rdy 0 noRsvd 2 always
    ∧ fits 0 0x0A06 [1, 0, 0, 0] (onStore (fun x => { x with slotB := { FwSlot.init with installed := some 2 } }) rdy) 4 (zeroAt 1 3) 2
      (fun e s => u8 e.payload 0 ≤ 1 ∧ s.power.mode ≠ .update ∧ slotState s (u8 e.payload 0) = 2 ∧ nvOpen s = true)
    ∧ fits 0 0x0A31 [6, 0, 0, 0] rdy 4 (zeroAt 1 3) 2 (fun e s => let k := u8 e.payload 0
      isPresent s k = true ∧ resettingShed s k = false ∧ s.scene.round = none ∧ s.therm.retest = none)
    ∧ met 0 0x0A32 [0, 0, 0, 0] rdy 4 (zeroAt 1 3) 2 (fun e _ => u8 e.payload 0 = 0)
    ∧ met 0 0x0A32 [4, 0, 0, 0] rdy 4 (zeroAt 1 3) 2 (fun e _ => u8 e.payload 0 = 3 ∨ u8 e.payload 0 = 4)
    ∧ met 0 0x0A32 [1, 0, 0, 0] rdy 4 (zeroAt 1 3) 2 (fun e _ => u8 e.payload 0 = 1 ∨ u8 e.payload 0 = 2) :=
  ⟨met_always (by decide +kernel), fits_of (met_always (by decide +kernel)) (by decide +kernel),
    fits_of (met_always (by decide +kernel)) (by decide +kernel), met_of (by decide +kernel) (by decide +kernel),
    met_of (by decide +kernel) (by decide +kernel), met_of (by decide +kernel) (by decide +kernel)⟩

/-! The mailboxes, the front registers and the SPI target port (10). -/

theorem takes_of {s : State} {n : Nat} (h : (s.power.ready && (getSess s n).isOpen && decide ((getMbx s n).queue.length < 4) && knownAll s.mbx
    && knownOpcode (slotEntry (getMbx s n) s.nextEntry).opcode) = true) : takesCommand s n := by
  simp only [Bool.and_eq_true, decide_eq_true_eq] at h
  obtain ⟨⟨⟨⟨a, b⟩, c⟩, d⟩, e⟩ := h
  refine ⟨a, b, c, fun j y hy hw => ?_⟩
  rcases List.mem_append.1 hy with hy | hy
  · exact get_known s.mbx d j y hy hw
  · split at hy
    · rw [List.mem_singleton.1 hy]; exact e
    · cases hy

/-- The slot of a SESSION_KEEPALIVE; a reply and an event that wait; a mailbox that holds them; and a full one. -/
def keepAlive : List Byte := [3, 1, 9, 0, 0, 0, 0, 0]
def reply1 : Item := ⟨77, 0x0103, 9, 0, 0, [1, 2, 3, 4], true, 9000000000⟩
def event1 : Item := ⟨0, 0x8003, 0, 0, 0, [], false, 0⟩
def ended : Entry := ⟨77, 0x0103, 9, 0, 0, [], .ended⟩
def holding (n : Nat) (s : State) : State :=
  setMbx n { Mailbox.init with queue := [ended], replies := [reply1], events := [event1], lost := 4 } s
def full : State := setMbx 15 { Mailbox.init with queue := [ended, ended, ended, ended] } rdy
def open15 (s : State) : State := updSess 15 (fun x => { x with isOpen := true }) s

theorem witness_MailboxEvents :
    takesCommand (slotPut 15 keepAlive (open15 rdy)) 15
    ∧ (let s := open15 full; s.power.ready = true ∧ (getSess s 15).isOpen = true ∧ 4 ≤ (getMbx s 15).queue.length)
    ∧ (let s := setMbx 15 { getMbx (slotPut 15 keepAlive rdy) 15 with bell := true } (open15 rdy); takesCommand s 15 ∧ (getMbx s 15).bell = true)
    ∧ (let s := holding 15 (open15 rdy); s.power.ready = true ∧ (getSess s 15).isOpen = true ∧ (stagedItem (getMbx s 15)).isSome = true) :=
  ⟨takes_of (by decide +kernel), by decide +kernel, ⟨takes_of (by decide +kernel), by decide +kernel⟩, by decide +kernel⟩

/-- The yard is held in reset; the firmware does not serve. -/
def heldReset : State := onPower (fun p => { p with phase := .held, ready := false, fw := false }) rdy
def noService (s : State) : State := onPower (fun p => { p with fw := false, ready := false }) s
def winPage16 : State := own 0x10 .host 0 { rdy with front := { rdy.front with winAddr := 0x10000000 ||| 0xFFC000 } }

theorem witness_FrontRegisters :
    rdy.power.ready = true ∧ (15 : Fin 16) ∉ [2, 3, 4, 5, 6, 7, 13]
    ∧ namedMbx rdy 0 = []
    ∧ (namedMbx rdy 1 = [0] ∧ takesCommand (slotPut 0 keepAlive rdy) 0)
    ∧ (namedMbx (holding 0 rdy) 1 = [0] ∧ (stagedItem (getMbx (holding 0 rdy) 0)).isSome = true)
    ∧ (winPage16.power.ready = true ∧ boundSpit winPage16 (winSess winPage16) = true ∧ holds winPage16 (winSess winPage16) (winPage winPage16) = true
      ∧ winWord winPage16 = 1023)
    ∧ (noService rdy).power.ready = false ∧ rdy.power.phase ≠ .held ∧ heldReset.power.phase = .held :=
  ⟨by decide +kernel, by decide +kernel, by decide +kernel, ⟨by decide +kernel, takes_of (by decide +kernel)⟩, by decide +kernel, by decide +kernel,
    by decide +kernel, by decide +kernel, by decide +kernel⟩

/-- One transaction of each type; those that name a page reach its last byte. -/
theorem witness_SpitTransactions :
    spitWhole rdy 0 [0, 1, 2]
    ∧ (let m : List Byte := [0x20, 24, 4] ++ zeros 8; spitWhole rdy 1 m ∧ ¬ (spitByte 1 m ≤ 28 ∧ 32 ≤ spitByte 1 m + spitCount 1 m))
    ∧ (let m : List Byte := [0x40, 52, 4, 1, 2, 3, 4]
      let covers := fun (i : Nat) => spitByte 2 m ≤ 4 * i ∧ 4 * i + 4 ≤ spitByte 2 m + spitCount 2 m
      spitWhole rdy 2 m ∧ ¬ covers 2 ∧ ¬ covers 4 ∧ ¬ covers 5 ∧ ¬ covers 7)
    ∧ (let m : List Byte := [0x60, 0, 8] ++ keepAlive; spitWhole rdy 3 m ∧ (u8 m 0).testBit 4 = false)
    ∧ (let m : List Byte := [0x70, 0, 8] ++ keepAlive; spitWhole rdy 3 m ∧ (u8 m 0).testBit 4 = true
      ∧ takesCommand (setMbx 0 { getMbx rdy 0 with slot := Table.putAll 0 (getMbx rdy 0).slot (spitByte 3 m) (slice m (spitHead 3) (spitCount 3 m)) } rdy) 0)
    ∧ (let m : List Byte := [0x90, 0, 12] ++ zeros 16; spitWhole rdy 4 m ∧ boundSpit (holding 0 rdy) 0 = true
      ∧ spitWhole (holding 0 rdy) 4 m ∧ stagedItem (getMbx (holding 0 rdy) 0) = some reply1)
    ∧ (let m : List Byte := [0x80, 0, 12] ++ zeros 16; spitWhole rdy 4 m ∧ stagedItem (getMbx rdy 0) = none)
    ∧ (let m : List Byte := [0xA0, 0x10, 0xFF, 0x0F, 1, 0, 0, 0, 7]
      spitWhole winPage16 5 m ∧ u8 m 0 % 4 = 0 ∧ holds winPage16 (u16 m 2 / 4096) (u8 m 1) = true)
    ∧ (let m : List Byte := [0xC0, 0, 0, 0, 8, 0] ++ zeros 16
      spitWhole rdy 6 m ∧ ((devPage (u8 m 1) = true → pageGen (atTime 0 rdy) (u8 m 1) % 2 = 0) ∧ rdy.front.winBusy = false)) :=
  ⟨by unfold spitWhole; decide +kernel, by unfold spitWhole; decide +kernel, by unfold spitWhole; decide +kernel,
    by unfold spitWhole; decide +kernel, ⟨by unfold spitWhole; decide +kernel, by decide +kernel, takes_of (by decide +kernel)⟩,
    by unfold spitWhole; decide +kernel, by unfold spitWhole; decide +kernel, by unfold spitWhole; decide +kernel,
    by unfold spitWhole; decide +kernel⟩

theorem witness_SpitRefusals :
    (let s := noService rdy; [(0xE0 : Byte)] ≠ [] ∧ u8 [0xE0] 0 / 32 = 7 ∧ s.power.phase ≠ .held ∧ (s.power.fw && boundSpit s 0) = false)
    ∧ (rdy.power.phase ≠ .held ∧ spitRefused rdy 7 [0xE0] = true ∧ spitRefused rdy 2 [0x40, 63, 2, 1, 2] = true)
    ∧ ((7 : Fin 8) ≠ 0 ∧ (noService rdy).power.phase ≠ .held ∧ ((noService rdy).power.fw && boundSpit (noService rdy) 0) = false)
    ∧ heldReset.power.phase = .held := by decide +kernel

/-! Ethernet, datagrams and CAN (11). -/

/-- Both ports run, in one VLAN with the CPU port; the device has an address and a prefix. -/
def linked (s : State) : State :=
  yr R.netCfg 0xA0220200 (yr R.swVlan 0x1F0000 (yr R.ipMisc 0x4198 (yr R.ipAddr 0xC0A80005
    (yr R.swPort 0x100000 (yr (R.swPort + 1) 0x100100 (yr (R.swPort + 2) 0x100000 (onNet (fun n => { n with link := true }) s)))))))
def frame (unsupported : Bool) : EthFrame := ⟨0, 0x020000000007, 0x020000000009, true, 1, 7, [1, 2], 0, unsupported, false⟩
def ipReq : IpRequest := ⟨0, 5, 0xC0A80009, 0xC0A80005, false, false, true, [1, 2]⟩

theorem witness_NetworkEvents :
    (let s := linked rdy; let f := frame true
      f.port.val = 0 ∧ t1On s = true ∧ f.collision = false ∧ f.unsupported = true ∧ portShadow s 0 = false)
    ∧ (let s := linked rdy; let f := frame false; let vid := if f.tagged then f.vid else pvid s 0
      f.port.val = 0 ∧ t1On s = true ∧ f.collision = false ∧ f.unsupported = false ∧ yf s R.swPort 19 10 = 0 ∧ yf s (R.swPort + 2) 19 10 = 0
      ∧ (f.tagged = true → inVlan s 0 vid = true) ∧ (f.tagged = false → yf s R.swPort 9 9 = 0))
    ∧ (let s := onNet (fun n => { n with link := false }) (linked rdy); netRuns s = true ∧ yf s R.netCfg 31 31 = 1 ∧ s.net.link = false)
    ∧ (linked rdy).net.link = true
    ∧ (t1sOn (linked rdy) = true ∧ (linked rdy).power.fail = none)
    ∧ (let s := { yr R.t1sPres 0x80000000 (linked rdy) with net := { (linked rdy).net with nodeSeen := [(31, 8000000000)] } }
      (31 : Fin 32) ≠ 0 ∧ yf s R.t1sPres 31 31 = 1 ∧ Table.get 0 s.net.nodeSeen 31 + yf s R.netCfg 7 4 * sec ≤ s.now)
    ∧ (cpuTakes (linked rdy) ipReq.port ∧ ownGoes (linked rdy) ipReq.port.val ∧ ipReq.dstIp = reg (linked rdy) yardDie R.ipAddr)
    ∧ (ipReq.options = false ∧ ipReq.fragment = false ∧ ipReq.headerOk = true ∧ mayReach (linked rdy) ipReq.port.val ipReq.srcIp) := by
  unfold mayReach cpuTakes ownGoes cpuVid; decide +kernel

/-- Session 15 of a UDP source, and what comes from it. -/
def udpSess (f : Session → Session) (s : State) : State :=
  updSess 15 (fun x => f { x with isOpen := true, src := .udp 0 0xC0A80009 777, lease := 100, last := 9999000000, priv := .owner }) (linked s)
def udp : State := udpSess id rdy
def datagram (p : BitVec 16) (b : List Byte) : Datagram := ⟨0, 5, 0xC0A80009, 0xC0A80005, false, false, true, 777, p, true, b⟩
def jhpCmd : Datagram := datagram (jhpPort udp) ([0x48, 0x4A, 1, 15, 8, 0, 0, 0] ++ keepAlive)
def jhpAck : Datagram := datagram (jhpPort udp) [0x48, 0x4A, 2, 15, 8, 0, 0, 0, 9, 0]
def winPut (type page : Byte) (data : List Byte) : Datagram :=
  datagram (winPort udp) ([0x48, 0x57, type, 0, 8, 0, 15, page, 0xFD, 0x0F, 3, 0, 0, 0, 0, 0] ++ data)

/-- What every datagram meets that the firmware takes. -/
def taken (s : State) (d : Datagram) : Prop :=
  cpuTakes s d.port ∧ d.options = false ∧ d.fragment = false ∧ d.headerOk = true ∧ d.dstIp = reg s yardDie R.ipAddr ∧ s.power.ready = true
  ∧ d.sumOk = true
def jhpTaken (s : State) (d : Datagram) (type n : Nat) : Prop :=
  taken s d ∧ d.dport = jhpPort s ∧ d.dport ≠ winPort s ∧ 8 ≤ d.body.length ∧ u16 d.body 0 = 0x4A48 ∧ u8 d.body 2 = type ∧ u16 d.body 6 = 0
  ∧ sourceSession s (sourceOf d) = some n ∧ u8 d.body 3 = n
def winTaken (s : State) (d : Datagram) (type n : Nat) : Prop :=
  taken s d ∧ d.dport = winPort s ∧ winFormed d.body = true ∧ u8 d.body 2 = type ∧ u8 d.body 6 = n ∧ winSession s d n = some n
  ∧ 1 ≤ u16 d.body 10 ∧ u16 d.body 10 ≤ 1408 ∧ u16 d.body 8 + u16 d.body 10 ≤ 4096 ∧ mayReach s d.port.val d.ip

theorem witness_HostDatagrams :
    (jhpTaken udp jhpCmd 1 15 ∧ 8 ≤ (jhpCmd.body.drop 8).length ∧ (jhpCmd.body.drop 8).length = 8 + u16 (jhpCmd.body.drop 8) 4
      ∧ u16 (jhpCmd.body.drop 8) 0 ≠ 0x0101 ∧ (getMbx udp 15).bell = false ∧ (getSess udp 15).cmdSeq ≠ some (u16 jhpCmd.body 4))
    ∧ takesCommand (slotPut 15 (jhpCmd.body.drop 8) udp) 15
    ∧ (let s := udpSess (fun x => { x with cmdSeq := some 8 }) rdy; jhpTaken s jhpCmd 1 15 ∧ (getSess s 15).cmdSeq = some (u16 jhpCmd.body 4))
    ∧ (let s := holding 15 udp; jhpTaken s jhpAck 2 15 ∧ (jhpAck.body.drop 8).length = 2 ∧ stagedItem (getMbx s 15) = some reply1
      ∧ reply1.tag = u16 (jhpAck.body.drop 8) 0)
    ∧ (let s := holding 15 udp; (getSess s 15).src = .udp 0 0xC0A80009 777 ∧ s.power.ready = true ∧ (getSess s 15).isOpen = true
      ∧ stagedItem (getMbx s 15) = some reply1 ∧ reply1.sentAt + yf s R.ipMisc 13 7 * ms ≤ s.now ∧ mayReach s 0 0xC0A80009)
    ∧ (let s := own 0x10 .host 15 udp; let d := winPut 0x11 0x10 [7, 8, 9]
      winTaken s d 0x11 15 ∧ u8 d.body 3 = 0 ∧ holds s 15 (u8 d.body 7) = true ∧ (getSess s 15).writeSeq = none)
    ∧ (let d := winPut 0x12 0x10 []; winTaken udp d 0x12 15 ∧ devPage (u8 d.body 7) = false)
    ∧ (let s := { udp with win := { udp.win with updates := [(0, (50000000000, zeros 4096))] } }; let d := winPut 0x12 0 []
      winTaken s d 0x12 15 ∧ devPage (u8 d.body 7) = true ∧ pageGen (atTime 0 s) (u8 d.body 7) % 2 = 1)
    ∧ (let r : DelayedRead := ⟨winPut 0x12 0 [], 0, 0xFFD, 3⟩; let s := { udp with win := { udp.win with delayed := [r] } }
      (s.win.delayed.find? fun r => decide (pageGen (atTime 0 s) r.page % 2 = 0)) = some r ∧ mayReach s r.d.port.val r.d.ip) := by
  refine ⟨?_, takes_of (by decide +kernel), ?_, ?_, ?_, ?_, ?_, ?_, ?_⟩ <;> simp only [jhpTaken, winTaken, taken, mayReach, ownGoes, cpuVid, cpuTakes]
    <;> decide +kernel

/-- Entry 1 of controller 0's map is a VALUE, entry 1 a trigger, entry 63 a status frame; JHP runs on both controllers. -/
def mapEntryAt (i w0 w1 w2 w3 : Nat) (s : State) : State :=
  yr (R.canMap + 4 * i) w0 (yr (R.canMap + 4 * i + 1) w1 (yr (R.canMap + 4 * i + 2) w2 (yr (R.canMap + 4 * i + 3) w3 s)))
def mapped : State :=
  mapEntryAt 0 0x80000100 0x7FF 0x05070100 0x30000 (mapEntryAt 1 0x80000101 0x7FF 0x05070101 8 (mapEntryAt 63 0xC0000102 0 0x102 0x10000
    (yr R.canCfg 0xE0000000 (yr R.canJhp 0x80000200
      { rdy with fns := [(5, { FnDrive.init with holder := .map })], scene := { rdy.scene with applied := [(0, [(A.fn + 10, 0x8000)])] } }))))
def canSess (s : State) : State :=
  updSess 15 (fun x => { x with isOpen := true, src := .can 0 1, lease := 100, last := 9999000000, priv := .owner }) s
def bus (b : Nat) (s : State) : State := setCan 0 { getCan s 0 with bus := b } s
def canCmd : CanFrame := ⟨0x204, false, true, keepAlive⟩
def canAck : CanFrame := ⟨0x206, false, false, [9, 0]⟩
def canVal : CanFrame := ⟨0x100, false, false, [0, 200]⟩
def canTrg : CanFrame := ⟨0x101, false, false, [0, 7]⟩

theorem witness_CanEvents :
    (let s := canSess mapped; jhpId s 0 canCmd = some 4 ∧ canHears s 0 = true ∧ s.power.ready = true ∧ sourceSession s (.can 0 1) = some 15
      ∧ canCmd.fdf = true ∧ 8 ≤ canCmd.data.length ∧ 8 + u16 canCmd.data 4 ≤ canCmd.data.length ∧ (getMbx s 15).bell = false)
    ∧ takesCommand (slotPut 15 (canCmd.data.take (8 + u16 canCmd.data 4)) (canSess mapped)) 15
    ∧ (let s := holding 15 (canSess mapped); jhpId s 0 canAck = some 6 ∧ canHears s 0 = true ∧ s.power.ready = true ∧ 2 ≤ canAck.data.length
      ∧ sourceSession s (.can 0 1) = some 15 ∧ stagedItem (getMbx s 15) = some reply1 ∧ reply1.tag = u16 canAck.data 0)
    ∧ (let s := holding 15 (canSess mapped); (getSess s 15).src = .can 0 1 ∧ s.power.ready = true ∧ (getSess s 15).isOpen = true
      ∧ stagedItem (getMbx s 15) = some reply1 ∧ reply1.sentAt + yf s R.ipMisc 13 7 * ms ≤ s.now ∧ canOn s 0 = true ∧ s.power.fail = none)
    ∧ (let s := mapped; jhpId s 0 canVal = none ∧ canHears s 0 = true ∧ (List.range 64).filter (fun i => entryMatches s 0 i canVal) = [0]
      ∧ mapActive s 0 0 = true ∧ tooShort s 0 0 canVal = false ∧ (getFn s (mapTarget s 0 0)).holder = .map)
    ∧ (let s := mapped; jhpId s 0 canTrg = none ∧ canHears s 0 = true ∧ (List.range 64).filter (fun i => entryMatches s 0 i canTrg) = [1]
      ∧ mapKind s 0 1 = 1 ∧ tooShort s 0 1 canTrg = false
      ∧ (fieldOf s 0 1 canTrg ≠ mapPrio s 0 1 ∨ (mapRun s 0 1).trig = some (fieldOf s 0 1 canTrg)))
    ∧ (netRuns mapped = true ∧ canOn mapped 0 = true)
    ∧ (let s := bus 2 mapped; (getCan s 0).bus = 2 ∧ (getCan s 0).held = false)
    ∧ (getCan mapped 0).bus ≠ 1
    ∧ (let s := mapped; s.power.fw = true ∧ mapActive s 0 0 = true ∧ mapTime s 0 0 ≠ 0 ∧ (mapRun s 0 0).timedOut = false
      ∧ (mapRun s 0 0).seen + mapTime s 0 0 * 10 * ms ≤ s.now)
    ∧ (let s := mapped; canHears s 0 = true ∧ mapValid s 0 63 = true ∧ mapKind s 0 63 = 2 ∧ (mapRun s 0 63).sentAt + mapTime s 0 63 * 10 * ms ≤ s.now
      ∧ (mapByte s 0 63 = 1 → (mapWord s 0 63 0).bit 30 = true) ∧ s.power.fail = none) :=
  ⟨by decide +kernel, takes_of (by decide +kernel), by decide +kernel⟩

/-! Paddock engines, SPI ports and the books (12 to 14). -/

/-- Lane 15 runs, with instruction `w` at its last PC. -/
def laneAt (w : Nat) (x : Lane) : State :=
  setLane 15 { x with pc := 511, st := .running }
    (setPk 1 { PkEngine.init with imem := [(511, BitVec.ofNat 32 w)], length := 512, lanes := 0xFF, entries := [(7, 0x1F00000000001F)] } rdy)
def lane0 : Lane := { Lane.init with ca := 3, fill := 32 }

theorem witness_LaneControl :
    (laneRuns (laneAt 0 lane0) 15 0x0 = true ∧ laneRuns (laneAt 0x15200007 lane0) 15 0x1 = true)
    ∧ (let s := laneAt 0x20000000 lane0; laneRuns s 15 0x2 = true ∧ (laneWord s 15).fld 27 26 = 0)
    ∧ (let s := laneAt 0x24000000 lane0; laneRuns s 15 0x2 = true ∧ (laneWord s 15).fld 27 26 = 1)
    ∧ (let s := laneAt 0x28000000 lane0; laneRuns s 15 0x2 = true ∧ (laneWord s 15).fld 27 26 = 2)
    ∧ laneRuns (laneAt 0xA000003F lane0) 15 0xA = true
    ∧ laneRuns rdy 15 0x0 = false := by decide +kernel

theorem witness_LaneData :
    laneRuns (laneAt 0x33E40000 lane0) 15 0x3 = true ∧ laneRuns (laneAt 0x43E00000 lane0) 15 0x4 = true
    ∧ laneRuns (laneAt 0x5000A5FF lane0) 15 0x5 = true ∧ laneRuns (laneAt 0x60005AF0 lane0) 15 0x6 = true
    ∧ (let s := laneAt 0x7A001234 lane0; laneRuns s 15 0x7 = true ∧ (laneWord s 15).fld 27 26 ≤ 2 ∧ (laneWord s 15).fld 25 23 ≤ 4)
    ∧ laneRuns (laneAt 0x88000000 lane0) 15 0x8 = true ∧ laneRuns (laneAt 0x98000000 lane0) 15 0x9 = true := by decide +kernel

/-- Trigger 63 is valid, and Paddock event 63 raises it. -/
def trig63 (s : State) : State :=
  { s with pat := { s.pat with trig := Table.putAll 0 (Table.putAll 0 [] (16 * 63) [0x20, 0, 3, 0, 1]) 1040 [0, 0, 0, 0, 0, 0, 0, 0x80] } }
def event63 (s : State) : State := { s with pk := { s.pk with raised := 0x8000000000000000 } }

theorem witness_PaddockEvents :
    (let s := event63 rdy; s.power.fw = true ∧ s.pk.raised.toNat.testBit 63 = true ∧ (pkTrgEn s).testBit 63 = false)
    ∧ (let s := trig63 (event63 rdy); s.power.fw = true ∧ s.pk.raised.toNat.testBit 63 = true ∧ (pkTrgEn s).testBit 63 = true ∧ safeOn s = false
      ∧ trigValid (trigEntry s 63) = true)
    ∧ (let s := setLane 15 { Lane.init with txq := [5, 6], tx := [7, 7, 7] } rdy
      s.power.fw = true ∧ (getLane s 15).txq = 5 :: [6] ∧ (getLane s 15).tx.length < 4)
    ∧ (let s := setLane 15 { Lane.init with rx := [8], rxq := List.replicate 255 0 } rdy
      s.power.fw = true ∧ (getLane s 15).rx = 8 :: [] ∧ (getLane s 15).rxq.length < 256) := by decide +kernel

def xfer1 : Xfer := ⟨0, 44, 1, true, [1, 2], [3, 4], none, 9000000000, true, 0x00010101, 0x07000000⟩
def copy1 : Copy := ⟨0, 44, 0x10, 4, 8, [1, 2, 3, 4, 5, 6], 5⟩

theorem witness_SpiEvents :
    (let s := setSpim 2 { getSpim rdy 2 with xfer := some xfer1 } rdy; (getSpim s 2).xfer = some xfer1 ∧ xferEnd xfer1 ≤ s.now)
    ∧ (let s := setSpim 2 { getSpim rdy 2 with frame := some (0, 7, 9745000000) } rdy
      (getSpim s 2).xfer = none ∧ (getSpim s 2).frame = some (0, 7, 9745000000) ∧ 9745000000 + fmtHold (bindFmt s 2 7) * ms ≤ s.now)
    ∧ (let s := { rdy with xip := ⟨some copy1, [3]⟩ }; s.xip.copy = some copy1 ∧ (copyLines copy1).length ≤ (copyProgress (atTime 0 s) copy1).1) := by
  decide +kernel

/-- Records and a snapshot wait for their writes, which the trip holds or not; a queue of item writes. -/
def rec1 : LogRec := { LogRec.void with seq := 4, code := 0x0503, sev := 3 }
def snap1 : Snapshot := { Snapshot.void with ev := rec1 }
def busy (s : State) : State :=
  { s with log := { s.log with ring := [rec1, rec1], tackPend := [(snap1, 3)], opS := 600, flushAt := 540, urgentAt := some 4, waits := [⟨0, 44, 4, 5⟩] } }
def tripped (s : State) : State := onPower (fun p => { p with hotTrip := true }) s
def itemWrite : NvWrite := ⟨N.regs, [1, 2, 3], 0, 44, 9, 0x0A12, [5], [], [], []⟩

theorem witness_BookEvents :
    (∀ s ∈ [busy rdy, tripped (busy rdy)], s.power.fw = true ∧ s.log.flushAt + 60 ≤ s.log.opS ∧ s.log.urgentAt.isSome = true ∧ s.store.flushDue = false
      ∧ s.log.tackPend ≠ [] ∧ s.store.saveDue = false ∧ s.log.saveAt + 600 ≤ s.log.opS)
    ∧ writesWait (busy rdy) = false ∧ writesWait (tripped (busy rdy)) = true
    ∧ (rdy.power.phase = .done ∧ rdy.power.mode ≠ .nightWatch)
    ∧ (let s := onStore (fun x => { x with queue := [itemWrite] }) rdy; s.store.queue = itemWrite :: [] ∧ writesWait s = false) := by decide +kernel

/-! Supplies, resets, modes and start-up (02). -/

/-- VBAT is up and the yard held. -/
def heldAt (f : Power → Power) : State := { State.reset with power := f { Power.init with vbat := true, pwrEn := true } }
def supplied (f : Power → Power) : State := heldAt fun p => f { p with vio := true, vcore := true }

theorem witness_SuppliesAndResets :
    (let s := heldAt id; let p := s.power
      suppliesValid s = false ∧ p.check = none ∧ p.resetLow = false ∧ p.resetFlush = false ∧ p.phase = .held ∧ p.mode = .startup)
    ∧ (let s := heldAt fun p => { p with check := some ⟨5⟩ }; suppliesValid s = false ∧ s.power.check.isSome = true ∧ s.power.pwrEn = true)
    ∧ (heldAt fun p => { p with phase := .released }).power.phase = .released
    ∧ (let p := (heldAt fun p => { p with phase := .clocked, check := some ⟨5⟩ }).power; p.phase ≠ .released ∧ p.check.isSome = true ∧ p.pwrEn = true)
    ∧ (State.reset.power.pwrEn = false ∧ State.reset.power.mode = .startup)
    ∧ (let p := (supplied fun p => { p with pwrEn := false }).power; (p.vio = true ∨ p.vcore = true) ∧ p.pwrEn = false)
    ∧ ((rdy.power.vio = true ∨ rdy.power.vcore = true) ∧ rdy.power.pwrEn = true ∧ rdy.power.phase ≠ .held)
    ∧ (rdy.power.resetLow = false ∧ us ≤ 1000 ∧ (heldAt id).power.phase = .held ∧ (heldAt id).power.resetLow = false ∧ (heldAt id).power.pwrEn = true)
    ∧ (let s := supplied fun p => { p with resetLow := true }; s.power.resetLow = true ∧ mayRelease s)
    ∧ (let p := (supplied fun p => { p with resetLow := true, resetFlush := true }).power; p.resetLow = true ∧ (p.resetFlush = true ∨ p.phase ≠ .held)) := by
  unfold mayRelease; decide +kernel

/-- A pulse of 100 ns to 1 us acts for some value of the free value and for some not: in the first case the pulse is as a long one. -/
theorem witness_ShortReset : rdy.power.pwrEn = true ∧ rdy.power.resetLow = false ∧ 999 < us ∧ 100 ≤ 999 ∧ 99 < 100
    ∧ (Config.shortReset rdy.free = true ∨ Config.shortReset rdy.free = false) :=
  ⟨by decide +kernel, by decide +kernel, by decide, by decide, by decide, by cases Config.shortReset rdy.free <;> simp⟩

/-- A power-fail one second old. -/
def failing (f : PowerFail → PowerFail) (s : State) : State := onPower (fun p => { p with fail := some (f ⟨9000000000, false, none, 0, [15]⟩) }) s
def dip1 : PowerFail := ⟨9000000000, false, none, 0, [15]⟩

theorem witness_PowerFailEvents :
    (let p := rdy.power; (p.mode = .run ∨ p.mode = .update ∨ p.mode = .coldWait) ∧ p.resetFlush = false ∧ p.fail = none)
    ∧ (let p := (failing (fun f => { f with backAt := some 5 }) rdy).power
      (p.mode = .run ∨ p.mode = .update ∨ p.mode = .coldWait) ∧ p.resetFlush = false ∧ p.fail = some { dip1 with backAt := some 5 }
      ∧ { dip1 with backAt := some 5 }.backAt.isSome = true)
    ∧ (let s := failing id rdy; s.power.fail = some dip1 ∧ dip1.flushed = false ∧ s.power.resetFlush = false ∧ yardHot s = false)
    ∧ yardHot (onTherm (fun x => { x with yardCore := 165 * 16 + 1 }) (failing id rdy)) = true
    ∧ (let p := (onPower (fun p => { p with resetFlush := true, resetLow := true }) (failing id rdy)).power
      p.fail = some dip1 ∧ p.resetFlush = true ∧ p.resetLow = true)
    ∧ (let s := onPower (fun p => { p with resetFlush := true }) (failing id rdy)
      s.power.resetFlush = true ∧ s.power.resetLow = false ∧ suppliesValid s = true ∧ s.power.mode ≠ .nightWatch)
    ∧ (let p := (failing id rdy).power; p.fail = some dip1 ∧ dip1.backAt = none ∧ p.vio = true ∧ p.vcore = true)
    ∧ (let f := { dip1 with backAt := some 9999000000, flushed := true }; let s := failing (fun _ => f) rdy
      s.power.fail = some f ∧ f.backAt = some 9999000000 ∧ f.flushed = true ∧ s.power.resetFlush = false ∧ 9999000000 + ms ≤ s.now) := by
  decide +kernel

theorem witness_NightWatchEntry :
    met 3 0x0502 [] rdy 0 noRsvd 1 always
    ∧ (let s := call 3 0x0502 [] rdy; s.power.mode ≠ .update ∧ inCold s = false ∧ flushRuns s = false ∧ s.power.entry = none ∧ noPinHeld s)
    ∧ (let s := setRegf yardDie R.nwCfg 31 16 1 (onPower (fun p => { p with idleSince := some 9000000000 }) rdy)
      s.power.idleSince = some 9000000000 ∧ yf s R.nwCfg 31 16 ≠ 0 ∧ 9000000000 + yf s R.nwCfg 31 16 * sec ≤ s.now ∧ s.power.mode = .run
      ∧ s.power.entry = none ∧ flushRuns s = false ∧ s.power.ready = true ∧ noPinHeld s)
    ∧ (let e : NwEntry := ⟨5, true, true⟩; let s := onPower (fun p => { p with entry := some e }) rdy
      s.power.entry = some e ∧ e.outputsOff = true ∧ flushRuns s = false) := by
  unfold noPinHeld; exact ⟨met_always (by decide +kernel), by decide +kernel⟩

/-- The device sleeps, with every wake source enabled; and its checks and wakes. -/
def sleeping (f : Power → Power) : State :=
  setRegf yardDie R.nwTimer 23 0 3 (setReg yardDie R.nwCfg 0xFE0
    { State.reset with now := 10000000000, power := f { Power.init with vbat := true, mode := .nightWatch, osc := true } })
def checking (at_ : Nat) (f : Power → Power) : State :=
  sleeping fun p => f { p with check := some ⟨at_⟩, pwrEn := true, vio := true, vcore := true }
/-- Trigger 5 is valid; pin 0's active edge and pin 1's inactive edge raise it. -/
def wakeTrig (s : State) : State :=
  { s with pat := { s.pat with trig := Table.putAll 0 (Table.putAll 0 [] (16 * 5) [0x20, 0, 3, 0, 1]) 1024 [0x85, 0, 0, 0, 0xC5, 0, 0, 0] } }
def bindingHolds (s : State) (p : Fin 4) (low : Bool) : Prop :=
  s.power.fw = true ∧ (s.power.mode = .run ∨ inCold s = true) ∧ (wakeBinding s p).testBit 7 = true
  ∧ (wakeBinding s p).testBit 6 = low ∧ trigValid (trigEntry s (wakeBinding s p % 64)) = true ∧ safeOn s = false

theorem witness_WakeEvents :
    (let s := sleeping id; s.power.wakeActive.toNat.testBit 3 = false ∧ wakeEnabled s 3 = true ∧ asleep s ∧ s.power.fw = false)
    ∧ (let s := setReg yardDie R.nwCfg 0xF00 (onPower (fun p => { p with entry := some ⟨5, true, true⟩ }) rdy)
      s.power.wakeActive.toNat.testBit 3 = false ∧ wakeEnabled s 3 = true ∧ s.power.entry.isSome = true)
    ∧ (let s := wakeTrig rdy; s.power.wakeActive.toNat.testBit 0 = false
      ∧ (wakeEnabled s 0 = false ∨ (s.power.entry = none ∧ s.power.mode ≠ .nightWatch)) ∧ bindingHolds s 0 false)
    ∧ (let s := wakeTrig (onPower (fun p => { p with wakeActive := 2 }) rdy); s.power.wakeActive.toNat.testBit 1 = true ∧ bindingHolds s 1 true)
    ∧ (let s := sleeping id; yf s R.nwCfg 7 7 = 1 ∧ asleep s ∧ yf s R.nwCfg 6 6 = 1)
    ∧ (let s := setReg yardDie R.nwCfg 0x80 (sleeping id); yf s R.nwCfg 7 7 = 1 ∧ asleep s ∧ yf s R.nwCfg 6 6 = 0)
    ∧ (let s := sleeping fun p => { p with timerSince := 7000000000 }; yf s R.nwCfg 5 5 = 1 ∧ yf s R.nwTimer 23 0 ≠ 0 ∧ s.power.osc = true
      ∧ s.power.timerSince + yf s R.nwTimer 23 0 * sec ≤ s.now ∧ asleep s)
    ∧ (let s := checking 9990000000 id; s.power.check = some ⟨9990000000⟩ ∧ s.power.pwrEn = true ∧ suppliesValid s = true
      ∧ (atTime 0 s).now ≤ windowEnd s ⟨9990000000⟩
      ∧ wakeMatch (wakePattern s) (le 4 (reg s yardDie R.nwWcode).toNat) (1 :: wakePattern s ++ [0, 0, 0, 0]) = true)
    ∧ (let s := checking 5 id; s.power.check = some ⟨5⟩ ∧ s.power.pwrEn = true ∧ suppliesValid s = true ∧ windowEnd s ⟨5⟩ ≤ s.now)
    ∧ (let s := sleeping fun p => { p with wakePending := true, pwrEnAt := 9995000000, check := some ⟨5⟩ }
      s.power.wakePending = true ∧ s.power.pwrEn = false ∧ s.power.pwrEnAt + 5 * ms ≤ s.now ∧ s.power.check.isSome = true)
    ∧ (let s := sleeping fun p => { p with wakePending := true, pwrEnAt := 9995000000 }
      s.power.wakePending = true ∧ s.power.pwrEnAt + 5 * ms ≤ s.now ∧ s.power.check = none) := by
  refine ⟨?_, ?_, ?_, ?_, ?_, ?_, ?_, ?_, ?_, ?_, ?_⟩ <;> (try simp only [bindingHolds, asleep]) <;> decide +kernel

/-- The Stable load failed one second ago. -/
def loading (s : State) : State :=
  onScene (fun x => { x with loadTried := some 9000000000 }) (onPower (fun p => { p with phase := .loading, stable := false, ready := false }) s)
def emptySlot (s : State) : State := onStore (fun x => { x with slotA := FwSlot.init }) s

theorem witness_FirmwareStarts :
    (∀ s ∈ [loading rdy, loading (stored N.stable rdy)], s.power.stable = false ∧ s.power.fw = true ∧ s.power.phase = .loading ∧ s.scene.round = none
      ∧ s.scene.loadTried = some 9000000000 ∧ 9000000000 + sec ≤ s.now ∧ ∀ k ∈ present s, (getLink s k).trained = true)
    ∧ ((selectStores (loading rdy)).2.1 = none ∧ (selectStores (loading (stored N.stable rdy))).2.1 ≠ none)
    ∧ (∀ s ∈ [noService rdy, noService (emptySlot rdy)], powered s = true ∧ s.power.fw = false ∧ s.power.resetLow = false ∧ s.power.check = none
      ∧ (getDet s 0x1C).raised = false)
    ∧ (bootSlot (verifySlots (noService (emptySlot rdy))) = none ∧ bootSlot (verifySlots (noService rdy)) = some 0)
    ∧ (let p := (noService (onPower (fun p => { p with mode := .startup }) rdy)).power; p.warm = false ∧ p.mode = .startup)
    ∧ rdy.power.fw = true := by decide +kernel

/-! Marks and the die links (01). -/

/-- The instant of the yard's next mark, and the yard with its mark words sent. -/
def nextAt : Nat := 9999000000 + 65536 * 16 * 10
def sentWords (n now : Nat) (s : State) : State := { s with now := now, marks := { s.marks with sent := n } }
/-- A control word waits on link 6. -/
def ctlOn (y : Bool) (c : Ctl) (s : State) : State :=
  updLink 6 (fun l => if y then { l with shed := { l.shed with ctl := [(c, c.head 255)] } } else { l with yard := { l.yard with ctl := [(c, c.head 255)] } }) s
def mark1 : MarkIn := ⟨9999000000, 1001⟩

theorem witness_Marks :
    (let s := sentWords 0 (nextAt - 4 * us) rdy; s.marks.running = true ∧ s.marks.sent = 0 ∧ nextMarkAt s ≤ s.now + 4 * us)
    ∧ (let s := sentWords 1 (nextAt - 2 * us) rdy; s.marks.sent = 1 ∧ nextMarkAt s ≤ s.now + 2 * us)
    ∧ (let s := sentWords 2 nextAt rdy; s.marks.running = true ∧ nextMarkAt s ≤ s.now ∧ s.marks.change = none)
    ∧ (let s := { sentWords 2 nextAt rdy with marks := { (sentWords 2 nextAt rdy).marks with change := some (1001, 9, 9) } }
      s.marks.running = true ∧ nextMarkAt s ≤ s.now ∧ s.marks.change = some (1001, 9, 9))
    ∧ (let s := ctlOn false (.mark 100 1001) rdy; isPresent s 6 = true ∧ ctlComes (atTime 0 s) 6 false (.mark 100 1001) ∧ (getShed s 6).markIn = none)
    ∧ (let s := onShed 6 (fun d => { d with markIn := some mark1 }) rdy
      (getShed s 6).markIn = some mark1 ∧ powered s = true ∧ mark1.fireAt ≤ s.now)
    ∧ (let s := onShed 6 (fun d => { d with markAt := 1000 }) rdy
      powered s = true ∧ (getShed s 6).markIn = none ∧ (getShed s 6).markAt ≠ 0 ∧ freeRunAt s 6 ≤ s.now)
    ∧ (8 ≤ (getShed (onShed 6 (fun d => { d with marksRx := 8 }) rdy) 6).marksRx)
    ∧ (let s := { rdy with marks := { rdy.marks with count := 1024 } }
      (getLink s 6).trained = true ∧ s.marks.running = true ∧ s.marks.count.toNat % 1024 = 0)
    ∧ (let s := onPower (fun p => { p with phase := .clocked, stable := false }) (down 0 (down 6 rdy))
      (getLink s 6).trained = false ∧ powered s = true ∧ s.power.phase = .clocked ∧ ∃ j ∈ present s, j ≠ 6 ∧ (getLink s j).trained = false)
    ∧ (let s := onPower (fun p => { p with phase := .clocked, stable := false }) (down 6 rdy)
      (getLink s 6).trained = false ∧ powered s = true ∧ s.power.phase = .clocked ∧ ∀ j ∈ present s, j ≠ 6 → (getLink s j).trained = true)
    ∧ (let s := down 6 rdy; (getLink s 6).trained = false ∧ powered s = true ∧ s.power.phase ≠ .clocked ∧ s.power.stable = true)
    ∧ (let s := updLink 6 (fun l => { l with outage := some 9950000000, lastTry := 9999000000 }) (down 6 rdy)
      (getLink s 6).trained = false ∧ (getLink s 6).outage = some 9950000000
      ∧ (getLink s 6).lastTry + (if (atTime 0 s).now < 9950000000 + 100 * ms then ms else 100 * ms) ≤ (atTime 0 s).now) := by
  refine ⟨?_, ?_, ?_, ?_, ?_, ?_, ?_, ?_, ?_, ?_, ?_, ?_, ?_⟩ <;> (try unfold ctlComes) <;> decide +kernel

/-- Packet `p` comes to one end of link 1, whole. -/
def sends (y : Bool) (p : Packet) (s : State) : State :=
  let o : OutPkt := ⟨0, p, p.head 0 255, 9999999000, 9999999900, false, 0⟩
  let from_ := { LinkEnd.init with out := [o], txSeq := 1 }
  { s with links := [(1, { Link.init with trained := true, yard := if y then LinkEnd.init else from_, shed := if y then from_ else LinkEnd.init })] }

theorem arrives (y : Bool) (p : Packet) (s : State) (h : isPresent s 1 = true) (hi : s.faults.injection = none) :
    packetComes (sends y p s) 1 y 0 p :=
  ⟨h, rfl, ⟨_, by cases y <;> rfl, rfl⟩, by cases y <;> rfl, fun i hh => by rw [show (sends y p s).faults.injection = none from hi] at hh; cases hh⟩

def pat3 (a : PatAct) (m : Word) : PatCtl := ⟨3, a, false, m, 0⟩
def pastMark (s : State) : State :=
  onShed 1 (fun d => { d with past := [⟨1000, 65536 * 160, 65536 * 160, [], [], false, []⟩], prepared := some 3, lastRound := 8 }) s
def resyncing (s : State) : State := onShed 1 (fun d => { d with resync := true }) s

/-- Any packet may arrive at shed 1; and what the statement asks of the shed for the packets that act by its state. -/
theorem witness_ShedPackets :
    (∀ p, packetComes (sends false p rdy) 1 false 0 p) ∧ (∀ p, packetComes (sends false p (pastMark rdy)) 1 false 0 p)
    ∧ (∀ p, packetComes (sends false p (resyncing rdy)) 1 false 0 p)
    ∧ (A.cfg - 2 + [(0 : DWord), 1].length ≤ A.cfg ∧ A.cfg ≤ A.cfg ∧ A.cal - 2 + [(0 : DWord), 1].length ≤ A.cal
      ∧ A.cal + 2046 + [(0 : DWord), 1].length ≤ A.cal + 2048)
    ∧ (let d := getShed (pastMark rdy) 1; d.resync = false ∧ d.prepared = some 3 ∧ d.lastRound = 8 ∧ d.badWords.any (fun x => !x.1) = false
      ∧ markAtOrAfter d.frame 1000 = true ∧ markAtOrAfter d.frame 1001 = false)
    ∧ (getShed (resyncing rdy) 1).resync = true
    ∧ (let d := getShed (pastMark rdy) 1; d.past.getLast? = some ⟨1000, 65536 * 160, 65536 * 160, [], [], false, []⟩
      ∧ markAtOrAfter 1000 (pat3 .start 1001).mark = false ∧ markAtOrAfter 1000 (pat3 .start 1000).mark = true)
    ∧ yardShadow rdy = false
    ∧ ((getShed rdy 1).drive.placing = none ∧ (getShed rdy 1).drive.next = none ∧ 65535 < 65536)
    ∧ (getShed (onDrive 1 (fun d => { d with next := some Plan.init }) rdy) 1).drive.next.isSome = true
    ∧ (isPresent rdy 1 = true ∧ (⟨0, 33⟩ : PacketErr).bad ≠ 0) := by
  refine ⟨fun p => arrives _ p _ (by decide +kernel) rfl, fun p => arrives _ p _ (by decide +kernel) rfl,
    fun p => arrives _ p _ (by decide +kernel) rfl, ?_⟩
  decide +kernel

def frameSt1 : FrameSt :=
  ⟨999, [3], [8], 3, some ⟨400, [5, 6, 7, 8], [1, 2, 3, 4], [1, 2, 3, 4], true, true, true⟩, [(3, true)], [], [3], 0, false⟩
def capture1 : Capture := ⟨1, 0, 9, 1002, 0, 44, true, 64, []⟩
def rounds (f : Round → Round) : State := inRound (f { rnd with ok := [0, 2] }) rdy

theorem witness_YardPackets :
    (∀ p, packetComes (sends true p rdy) 1 true 0 p)
    ∧ (rdy.scene.round = none ∧ rdy.power.loadFailed = false ∧ (⟨2, 0⟩ : PacketErr).bad = 0)
    ∧ (∀ p, packetComes (sends true p (rounds id)) 1 true 0 p)
    ∧ (let r := { rnd with ok := [0, 2] }; (rounds id).scene.round = some r ∧ r.prepared ≠ [] ∧ r.redo = [] ∧ 1 ∈ r.sheds
      ∧ (rounds id).power.fw = true ∧ ∀ j ∈ r.sheds, j ∈ r.ok ++ [1])
    ∧ (let r := rnd; (inRound r rdy).scene.round = some r ∧ ∃ j ∈ r.sheds, j ∉ r.ok ++ [1])
    ∧ ((rounds id).power.loadFailed = false ∧ 1 ∉ ({ rnd with ok := [0, 2] } : Round).second)
    ∧ (let r := { rnd with second := [1] }; (inRound r rdy).scene.round = some r ∧ 1 ∈ r.second ∧ r.boot = false)
    ∧ (let s := { rdy with lt := ⟨some capture1, none, [], false⟩ }
      s.lt.capture = some capture1 ∧ capture1.shed = 1 ∧ capture1.named = true ∧ capture1.mark = capture1.mark)
    ∧ (lasting 0x0B = false ∧ shedShadow rdy 1 = false ∧ 0x0B < 32)
    ∧ ((getDet rdy 0x12).cause = false) := by
  refine ⟨fun p => arrives _ p _ (by decide +kernel) rfl, by decide +kernel, fun p => arrives _ p _ (by decide +kernel) rfl, ?_⟩
  decide +kernel

/-- Packets that wait for their acknowledgement at the yard's end of link 6. -/
def out6 (y : Bool) (os : List OutPkt) (s : State) : State :=
  updLink 6 (fun l => if y then { l with yard := { l.yard with out := os, txSeq := 6, lastRx := 9999000000, lastTx := 9999900000 } }
    else { l with shed := { l.shed with out := os, txSeq := 6, lastRx := 9999000000, lastTx := 9999900000 } }) s
def pkt2 (retries at_ : Nat) : OutPkt := ⟨2, .readReq 2, (Packet.readReq 2).head 2 255, at_, at_, false, retries⟩

theorem witness_LinkControls :
    (let s := ctlOn true (.ack 2) (out6 true [pkt2 3 5000] rdy); isPresent s 6 = true ∧ ctlComes (atTime 0 s) 6 true (.ack (2 : Byte).toNat))
    ∧ (let s := ctlOn true (.nak 2) (out6 true [pkt2 3 5000] rdy); ctlComes (atTime 0 s) 6 true (.nak (2 : Byte).toNat)
      ∧ (getEnd s 6 true).fired = false ∧ (∀ o ∈ (getEnd s 6 true).out, o.retries < 4) ∧ s.power.loadFailed = false)
    ∧ (let s := ctlOn false (.heartbeat 1000) rdy; ctlComes (atTime 0 s) 6 false (heartbeatOn (atTime 0 s) 6 false))
    ∧ (getLink rdy 6).trained = true
    ∧ (let s := out6 true [] rdy; (getEnd s 6 true).lastTx + 100 * us ≤ s.now)
    ∧ (let s := out6 true [] rdy; (getLink s 6).trained = true ∧ (getEnd s 6 true).fired = false ∧ (getEnd s 6 true).lastRx + ms ≤ s.now
      ∧ retryPending (atTime 0 s) 6 true = false ∧ shedShadow s 6 = false)
    ∧ (let s := out6 false [pkt2 3 9999998000] rdy; (getEnd s 6 false).out = pkt2 3 9999998000 :: [] ∧ (getEnd s 6 false).fired = false
      ∧ (pkt2 3 9999998000).sentAt + 2 * us ≤ s.now ∧ (pkt2 3 9999998000).retries < 4)
    ∧ (let s := out6 false [pkt2 4 9999998000] rdy; (getEnd s 6 false).out = pkt2 4 9999998000 :: [] ∧ 4 ≤ (pkt2 4 9999998000).retries) := by
  unfold ctlComes; decide +kernel

/-! The shed: output stage, placer, diagnostics and engines (03, 04, 06, 08). -/

def site7 (i : Nat) (f : Site → Site) (s : State) : State := onShed 6 (updSite i f) s
/-- Shed 6 stands `w` ns before its next mark. -/
def before (w : Nat) (s : State) : State := onShed 6 (fun d => { d with markAt := 10000000000 + w - 65536 * 16 * 10 }) s
def placing1 (late : Bool) : Placing := ⟨[], 5, false, late, false, [3]⟩
def placingIn (late : Bool) (s : State) : State := onDrive 6 (fun d => { d with placing := some (placing1 late) }) s
/-- A plan that drives the last sink of the last row, and its switch. -/
def driving (s : State) : State :=
  onDrive 6 (fun d => { d with plan := { Plan.init with sites := [⟨2047, 5, 5, [10], [(3, 0, 10)], []⟩], switches := [⟨15, 0, 10, none⟩] } }) s

theorem witness_OutputStage :
    (let s := onDrive 6 (fun d => { d with off := true }) (onShed 6 (fun d => { d with cfgDrv := [(R.shedCfg, 0x80)] }) rdy); let d := getShed s 6
      isPresent s 6 = true ∧ cf d.cfgDrv R.shedCfg (4 + 3) (4 + 3) = 1 ∧ (d.drive.off = true ∨ ∀ o ∈ ([] : List PulseObs), groupOf o.ch ≠ 3))
    ∧ (let s := setRegf 6 (R.trimSt + 3) 3 0 8 rdy; dropoutDue s 6 3 = true ∧ shedShadow s 6 = false)
    ∧ (let s := before ms rdy; let d := getShed s 6
      d.drive.placing = none ∧ d.drive.next = none ∧ d.markAt + shedInterval d ≤ (atTime 0 s).now + ms)
    ∧ (let s := before (100 * us) (placingIn false rdy); let d := getShed s 6
      d.drive.placing = some (placing1 false) ∧ (placing1 false).finished = false ∧ (placing1 false).late = false
      ∧ d.markAt + shedInterval d ≤ (atTime 0 s).now + 100 * us)
    ∧ ((placing1 true).finished = false ∧ (getShed (placingIn true rdy) 6).drive.placing = some (placing1 true)
      ∧ (placing1 true).toLevel.contains 3 = true)
    ∧ (let d := getShed (driving rdy) 6; d.drive.off = false ∧ pulsesNow d (leadSite d (128 * 15 + 127)) = true ∧ (switchPlan d 15).isSome = true)
    ∧ (let d := getShed (onShed 6 (fun d => { d with cfgDrv := [(R.xcCfg + 7, 0x80000000)] }) rdy) 6
      d.drive.off = false ∧ cf d.cfgDrv (R.xcCfg + 7) 31 31 = 1)
    ∧ (getSwitch (getShed (onShed 6 (fun d => { d with switches := [(15, ⟨2, 3, true, 1, false⟩)] }) rdy) 6) 15).due = true
    ∧ (getBooster (getShed (onShed 6 (fun d => { d with boosters := [(7, ⟨4, 3, true, 1, false⟩)] }) rdy) 6) 7).due = true
    ∧ (let x := getSite (getShed (site7 2047 (fun x => { x with onDue := true, offDue := true }) rdy) 6) 2047; x.onDue = true ∧ x.offDue = true)
    ∧ (let d := getShed (onDrive 6 (fun d => { d with periods := 10000000 }) (site7 2047 (fun x => { x with onLive := true, offLive := true, clsOn := 2, clsOff := 1 }) rdy)) 6
      staleOn d 2047 = true ∧ staleOff d 2047 = true)
    ∧ (let d := getShed (site7 2047 (fun x => { x with debt := 9, debtTo := 999 }) rdy) 6
      (getSite d 2047).debt ≠ 0 ∧ markAtOrAfter (getSite d 2047).debtTo d.frame = false) := by
  refine ⟨?_, ?_, ?_, ?_, ?_, ?_, ?_, ?_, ?_, ?_, ?_, ?_⟩ <;> decide +kernel

/-- Engine 15 of shed 6 at keyframe `g.key`, whose word is `w`, of a program of `keys` keyframes. -/
def engineAt (g : Engine) (w keys : Nat) : State := onShed 6 (fun d => { d with
  engines := [(15, g)], front := [(A.prog + 1024 * 15, BitVec.ofNat 64 keys), (A.prog + 1024 * 15 + 4 + g.key, BitVec.ofNat 64 w)] }) rdy
def keyAt (key : Nat) : Engine := { Engine.init with st := .running, key := key, ended := true, level := 77, l0 := 66, j := 2, d := 3 }
def kfWord (flow loop count : Nat) : Nat := 500 * 2 ^ 48 + 5 * 2 ^ 32 + flow * 2 ^ 24 + loop * 2 ^ 18 + count * 2 ^ 10

/-- FLOW 0 to 3, with keyframes left and at the last; a delay and a fade that end; a frame number that a checkpoint falls on. -/
theorem witness_EngineEvents :
    (let g := keyAt 1; let s := engineAt g (kfWord 0 0 0) 3; let d := getShed s 6
      keyDue (getEngine d 15) = true ∧ kfFlow (keyframe d.front 15 1) = 0 ∧ 1 + 1 < pgKeys d.front 15)
    ∧ (let s := engineAt (keyAt 2) (kfWord 0 0 0) 3; let d := getShed s 6
      keyDue (getEngine d 15) = true ∧ kfFlow (keyframe d.front 15 2) = 0 ∧ pgKeys d.front 15 ≤ 2 + 1)
    ∧ (let s := engineAt (keyAt 1) (kfWord 1 0 2) 3; let d := getShed s 6; let w := keyframe d.front 15 1
      keyDue (getEngine d 15) = true ∧ kfFlow w = 1 ∧ passLeft w (getEngine d 15) ≠ 0)
    ∧ (let s := engineAt { keyAt 1 with passes := [(1, 1)] } (kfWord 1 0 0) 3; let d := getShed s 6; let w := keyframe d.front 15 1
      keyDue (getEngine d 15) = true ∧ kfFlow w = 1 ∧ passLeft w (getEngine d 15) = 0 ∧ 1 + 1 < pgKeys d.front 15)
    ∧ (let s := engineAt (keyAt 1) (kfWord 2 1 0) 3; let d := getShed s 6; keyDue (getEngine d 15) = true ∧ kfFlow (keyframe d.front 15 1) = 2)
    ∧ (let s := engineAt (keyAt 1) (kfWord 3 1 0) 3; let d := getShed s 6; keyDue (getEngine d 15) = true ∧ 3 ≤ kfFlow (keyframe d.front 15 1))
    ∧ (∀ d ∈ [0, 3], phaseDue (getEngine (getShed (engineAt { keyAt 1 with inDelay := true, d := d } (kfWord 0 0 0) 3) 6) 15) = true)
    ∧ fadeDue (getEngine (getShed (engineAt { keyAt 1 with st := .fading } (kfWord 0 0 0) 3) 6) 15) = true
    ∧ (let s := onShed 6 (fun d => { d with frame := 1008 }) rdy; let d := getShed s 6
      d.frame.toNat % 16 = 0 ∧ (getLink s 6).trained = true ∧ d.mode = .joined ∧ d.resync = false ∧ s.power.fail = none) := by
  refine ⟨?_, ?_, ?_, ?_, ?_, ?_, ?_, ?_, ?_⟩ <;> decide +kernel

/-! Rounds, thermal protection, pages, commit rounds and faults (05, 07 to 09, 15, 17). -/

def converting (s : State) : State := onShed 6 (fun d => { d with warm := { d.warm with busy := true } }) s
def retest6 : Retest := ⟨255, 980, true, 15, 44, 16, none, none⟩
/-- Function 255 is under retest at site 127 of shed 6, whose observations are bad or good. -/
def retesting (bad : Bool) (s : State) : State :=
  let m := [(A.attr + 127, BitVec.ofNat 64 (2 ^ 15 + 255))]
  updFn 255 (fun x => { x with st := 2 }) (onTherm (fun x => { x with retest := some retest6 }) (onScene (fun x => { x with applied := [(6, m)] })
    (onShed 6 (fun d => { d with front := m, sites := [(127, { Site.init with verdict := 3, rtBad := bad, rtOn := 99 })] }) s)))
def captured : Capture := ⟨6, 1, 9, 980, 15, 44, true, 64, [⟨127, 0, 0, 0, 0, false, none, 0, 0, 0, 0, false, 0, 5⟩]⟩

theorem witness_RoundEvents :
    (isPresent (converting rdy) 6 = true ∧ (getShed (converting rdy) 6).warm.busy = true)
    ∧ (powered rdy = true ∧ rdy.therm.roundAt + rdy.therm.roundLen ≤ rdy.now)
    ∧ (let s := retesting false rdy;
      s.therm.retest = some retest6 ∧ s.power.fw = true ∧ writesHeld s = false ∧ retest6.back = none ∧ (getFn s 255).st = 2
      ∧ ((present s).all fun k => (sitesOf (applied s k) 255).isEmpty || (retestOver s retest6 k
        && (drivenSites s k 255).all fun i => !retestBad (getShed s k) i)) = true)
    ∧ (let s := retesting true rdy;
      s.therm.retest = some retest6 ∧ writesHeld s = false ∧ (getFn s 255).st = 2
      ∧ ((present s).all fun k => (sitesOf (applied s k) 255).isEmpty || retestOver s retest6 k) = true
      ∧ 6 ∈ present s ∧ sitesOf (applied s 6) 255 ≠ [] ∧ 127 ∈ drivenSites s 6 255 ∧ retestBad (getShed s 6) 127 = true)
    ∧ (let s : State := { rdy with lt := ⟨some captured, some captured, [], false⟩ }
      s.lt.capture = some captured ∧ s.lt.arrived = some captured) := by
  refine ⟨?_, ?_, ?_, ?_, ?_⟩ <;> decide +kernel

def hotSnap : Snapshot := { Snapshot.void with ev := { LogRec.void with seq := 4, code := 0x0503, sev := 3 } }
def hotStaged (s : State) : State := { s with log := { s.log with tackPend := [(hotSnap, 3)], ring := [LogRec.void] } }

theorem witness_DeferredWritesAndTrips :
    (let s := hotStaged (onStore (fun x => { x with tackDue := true, flushDue := true, saveDue := true }) (window rdy));
      writesWait s = false ∧ s.power.fw = true ∧ s.store.tackDue = true ∧ s.store.flushDue = true ∧ s.store.saveDue = true)
    ∧ (let s := onTherm (fun x => { x with warned := true, dies := [(0, 16 * 300)], badNow := 0, everSeen := 1 }) (window rdy);
      writesWait s = false ∧ s.power.fw = true ∧ s.therm.warned = true ∧ warnT s ≤ (tjMax s).1 ∧ s.therm.armedAt + sec ≤ s.now)
    ∧ (powered rdy = true ∧ rdy.power.tripped.toNat.testBit 7 = false ∧ isPresent rdy 6 = true ∧ rdy.power.mode ≠ .coldWait)
    ∧ (let s := onPower (fun p => { p with heldBack := true }) (hotStaged rdy);
      yardHot s = false ∧ s.power.heldBack = true ∧ s.power.fail = none ∧ s.power.fw = true)
    ∧ (let s := onTherm (fun x => { x with hotDeferred := true }) (hotStaged rdy);
      yardHot s = false ∧ s.therm.hotDeferred = true ∧ s.power.heldBack = false ∧ (hotSnap, 3) ∈ s.log.tackPend ∧ hotSnap.ev.code = 0x0503)
    ∧ (let s := onTherm (fun x => { x with hotDue := true }) rdy;
      s.therm.hotDue = true ∧ s.power.mode ≠ .coldWait ∧ s.power.fw = true ∧ ∀ c ∈ [s.therm.yardCore, s.therm.yardMem, s.therm.yardNet], c < 125 * 16) := by
  refine ⟨?_, ?_, ?_, ?_, ?_, ?_⟩ <;> decide +kernel

/-- A round whose PREPARE went out 10 ms ago, answered by shed 0 only. -/
def asking (boot : Bool) (second : List Nat) : Round :=
  { id := 7, commits := [], lapses := [], values := [], edits := [], after := [], sheds := [0, 6], away := false, words := [], prepared := [0, 6], ok := [0]
    second := second, preparedAt := 9990000000, safe := false, restore := false, boot := boot, redo := [] }
def asksFor (boot : Bool) (second : List Nat) (s : State) : State := onScene (fun x => { x with round := some (asking boot second) }) s
def stableScene (s : State) : State := setItem N.stable { NvItem.init with a := some ⟨1, [0x5A, 0x53, 0x43, 0x4E] ++ zeros 28, true⟩ } s
theorem witness_PublicationsAndCommitRounds :
    (let s : State := { rdy with diag := { rdy.diag with due := [(0, 14335, 1, 5)] } };
      s.power.fw = true ∧ s.diag.due ≠ [] ∧ s.diag.last ≠ some s.marks.count ∧ 14335 + 1 ≤ 14336)
    ∧ (let s := onScene (fun x => { x with heldLapses := [255], heldValues := [(0, 9)] }) rdy;
      (roundFree (atTime 0 s) = true ∧ shedsReady (atTime 0 s) = true ∧ 6 ∈ present s ∧ shedServing s 6 = true)
      ∧ s.scene.safeWanted = false ∧ safeOn s = false ∧ s.power.fw = true ∧ s.scene.restoreDue = false ∧ s.scene.heldLapses ≠ [])
    ∧ (let s := onScene (fun x => { x with safeWanted := true }) (stableScene rdy);
      (roundFree (atTime 0 s) = true ∧ shedsReady (atTime 0 s) = true ∧ 6 ∈ present s ∧ shedServing s 6 = true)
      ∧ s.scene.safeWanted = true ∧ (pickCopy s N.stable (imageFits s)).isSome = true)
    ∧ (let s := onScene (fun x => { x with restoreDue := true, replaced := some [(6, [(3, 4)])] }) rdy;
      (roundFree (atTime 0 s) = true ∧ shedsReady (atTime 0 s) = true ∧ 6 ∈ present s ∧ shedServing s 6 = true)
      ∧ s.scene.safeWanted = false ∧ safeOn s = false ∧ s.scene.restoreDue = true ∧ s.scene.replaced = some [(6, [(3, 4)])])
    ∧ (let s := onScene (fun x => { x with safeWanted := true }) rdy;
      roundFree (atTime 0 s) = true ∧ shedsReady (atTime 0 s) = true ∧ s.scene.safeWanted = true ∧ pickCopy s N.stable (imageFits s) = none)
    ∧ (let s := asksFor false [] rdy;
      s.scene.round = some (asking false []) ∧ (asking false []).prepared ≠ [] ∧ (asking false []).preparedAt + 500 * us ≤ (atTime 0 s).now
      ∧ ((asking false []).sheds.filter fun k => !List.contains [0] k) = [6] ∧ retryPending (atTime 0 s) 6 true = false ∧ (asking false []).boot = false)
    ∧ (let s := asksFor true [] rdy;
      s.scene.round = some (asking true []) ∧ (asking true []).boot = true ∧ retryPending (atTime 0 s) 6 true = false ∧ 6 ∉ (asking true []).second) := by
  refine ⟨?_, ?_, ?_, ?_, ?_, ?_, ?_⟩ <;> decide +kernel

def inject1 (bits : Nat) : Injection := ⟨0, bits, 0, 0, 5, 9000000000, 1⟩
def injected (bits : Nat) (s : State) : State := onFaults (fun x => { x with injection := some (inject1 bits) }) s
def shadow6 : Shadow := ⟨.shed 6, some 5, 4, []⟩

theorem witness_FaultEvents :
    (isPresent rdy 6 = true ∧ rdy.power.phase ≠ .held ∧ detectsIn 0x18 7 = true ∧ shedShadow rdy 6 = false)
    ∧ (rdy.power.phase ≠ .held ∧ detectsIn 0 0 = true)
    ∧ (let s := onFaults (fun x => { x with shadows := [shadow6] }) rdy;
      isPresent s 6 = true ∧ shadowOf s (.shed 6) = some shadow6 ∧ shadow6.resumed = some 5 ∧ 5 + 5 * ms ≤ s.now)
    ∧ (let s := injected 1 rdy; s.faults.injection = some (inject1 1) ∧ (inject1 1).left ≠ 0 ∧ (inject1 1).at_ + sec ≤ s.now
      ∧ (inject1 1).checker = 0 ∧ s.power.fw = true ∧ (inject1 1).bits = 1)
    ∧ (let s := injected 2 rdy; s.faults.injection = some (inject1 2) ∧ (inject1 2).checker = 0 ∧ s.power.fw = true ∧ (inject1 2).bits ≠ 1)
    ∧ (yf (yr R.faultCfg 0xFF00 rdy) R.faultCfg 15 8 = 255 ∧ 255 ≤ yf (yr R.faultCfg 0xFF00 rdy) R.faultCfg 15 8
      ∧ yf (yr R.faultCfg 0xFF00 rdy) R.faultCfg 15 8 < 256) := by
  refine ⟨?_, ?_, ?_, ?_, ?_, ?_⟩ <;> decide +kernel

/-! The block. -/

/-- On a ZLK2, which has shed 0 only: a command that names shed 0, and one that names shed 1. -/
theorem witness_FaultsExactlyOnAbsentSheds :
    onPresentDie { State.reset with variant := .zlk2 } (.fallback 0 0 7 ⟨0, 0⟩) = true
    ∧ onPresentDie { State.reset with variant := .zlk2 } (.fallback 0 1 7 ⟨0, 0⟩) = false := by decide +kernel

theorem witness_SafeQueuesKeepRunning :
    queueSafe { State.reset with pending := [.fallback 0 6 7 ⟨0, 0⟩, .yardFrameMark 0] } = true ∧ State.reset.pending = [] := by decide +kernel

theorem witness_FailLevelInvariant : State.reset.power.failLevel = failN State.reset
    ∧ State.reset.pending = [] ∧ step State.reset = .next State.reset := ⟨by decide +kernel, rfl, rfl⟩

theorem witness_EmptyQueueIdles : State.reset.pending = [] := rfl

theorem witness_CommandsKeepQueueVariantAndClock : ∃ u, exec (.markWordSend 5 1) rdy = .next u := ⟨_, rfl⟩

/-! Ill-formed commands: for each check of WellFormed a command that it refuses. -/

def noObs : PeriodObs := ⟨[], [], [], []⟩
def fourReadings : ShedReadings := ⟨0, [1, 2, 3, 4095], [5, 6, 7, 8], [5, 6, 7, 8], false, false, true⟩
def plainFrame : EthFrame := ⟨1, 2, 3, true, 4095, 7, [1], 31, false, true⟩
def plainDatagram : Datagram := ⟨0, 1, 2, 3, false, false, true, 4, 5, true, []⟩
def plainRequest : IpRequest := ⟨0, 1, 2, 3, false, false, true, []⟩

theorem test_wellFormed_accepts : WellFormed (.pwmPeriodEnd 0 6 ⟨[⟨127, 15, 9, 4095, 1, 1, 1⟩], [⟨127, 15, 1, 1, 1⟩], [⟨15, 1, false, false⟩], [⟨7, true, false, 1, 1, true⟩]⟩)
    && WellFormed (.prepare 0 6 255 ⟨⟨32, 1⟩, some 65535⟩) && WellFormed (.shedRoundComplete 0 6 fourReadings) && WellFormed (.ethernetFrame 0 plainFrame)
    && WellFormed (.canDataFrame 0 1 ⟨2047, false, true, zeros 64⟩) && WellFormed (.canDataFrame 0 1 ⟨2 ^ 29 - 1, true, false, zeros 8⟩) = true := by decide +kernel
theorem test_wellFormed_pulse_sink : WellFormed (.pwmPeriodEnd 0 0 { noObs with pulses := [⟨128, 0, 9, 9, 1, 1, 1⟩] }) = false := by decide +kernel
theorem test_wellFormed_pulse_row : WellFormed (.pwmPeriodEnd 0 0 { noObs with pulses := [⟨0, 16, 9, 9, 1, 1, 1⟩] }) = false := by decide +kernel
theorem test_wellFormed_pulse_code : WellFormed (.pwmPeriodEnd 0 0 { noObs with pulses := [⟨0, 0, 9, 4096, 1, 1, 1⟩] }) = false := by decide +kernel
theorem test_wellFormed_off_sink : WellFormed (.pwmPeriodEnd 0 0 { noObs with offs := [⟨128, 0, 1, 1, 1⟩] }) = false := by decide +kernel
theorem test_wellFormed_off_row : WellFormed (.pwmPeriodEnd 0 0 { noObs with offs := [⟨0, 16, 1, 1, 1⟩] }) = false := by decide +kernel
theorem test_wellFormed_switch : WellFormed (.pwmPeriodEnd 0 0 { noObs with switches := [⟨16, 1, false, false⟩] }) = false := by decide +kernel
theorem test_wellFormed_booster : WellFormed (.pwmPeriodEnd 0 0 { noObs with boosters := [⟨8, true, false, 1, 1, true⟩] }) = false := by decide +kernel
theorem test_wellFormed_packet_words : WellFormed (.write 0 0 0 ⟨33, 1⟩) = false := by decide +kernel
theorem test_wellFormed_prepare_place : WellFormed (.prepare 0 0 0 ⟨⟨0, 0⟩, some 65536⟩) = false := by decide +kernel
theorem test_wellFormed_ntc_count : WellFormed (.shedRoundComplete 0 0 { fourReadings with ntc := [1, 2, 3] }) = false := by decide +kernel
theorem test_wellFormed_ntc_code : WellFormed (.linkTrained 0 0 0 { fourReadings with ntc := [1, 2, 3, 4096] }) = false := by decide +kernel
theorem test_wellFormed_sink_supplies : WellFormed (.shedRoundComplete 0 0 { fourReadings with vls := [] }) = false := by decide +kernel
theorem test_wellFormed_scan_supplies : WellFormed (.shedRoundComplete 0 0 { fourReadings with vscan := [] }) = false := by decide +kernel
theorem test_wellFormed_frame_vid : WellFormed (.ethernetFrame 0 { plainFrame with vid := 4096 }) = false := by decide +kernel
theorem test_wellFormed_frame_pcp : WellFormed (.ethernetFrame 0 { plainFrame with pcp := 8 }) = false := by decide +kernel
theorem test_wellFormed_frame_payload : WellFormed (.ethernetFrame 0 { plainFrame with payload := zeros 1501 }) = false := by decide +kernel
theorem test_wellFormed_frame_node : WellFormed (.ethernetFrame 0 { plainFrame with node := 32 }) = false := by decide +kernel
theorem test_wellFormed_frame_collision : WellFormed (.ethernetFrame 0 { plainFrame with port := 0 }) = false := by decide +kernel
theorem test_wellFormed_datagram : WellFormed (.jhpCommandDatagram 0 { plainDatagram with body := zeros 1473 }) = false := by decide +kernel
theorem test_wellFormed_echo : WellFormed (.icmpEchoRequest 0 { plainRequest with data := zeros 1473 }) = false := by decide +kernel
theorem test_wellFormed_can_id : WellFormed (.canDataFrame 0 0 ⟨2048, false, false, []⟩) = false := by decide +kernel
theorem test_wellFormed_can_extended_id : WellFormed (.canDataFrame 0 0 ⟨2 ^ 29, true, false, []⟩) = false := by decide +kernel
theorem test_wellFormed_can_length : WellFormed (.canDataFrame 0 0 ⟨0, false, false, zeros 9⟩) = false := by decide +kernel
theorem test_wellFormed_can_fd_length : WellFormed (.canDataFrame 0 0 ⟨0, false, true, zeros 9⟩) = false := by decide +kernel
theorem test_wellFormed_lowest_supply : WellFormed (.vbatReturn 0 65536) = false := by decide +kernel
theorem test_wellFormed_wake_frame : WellFormed (.wakeFrame 0 (zeros 1501)) = false := by decide +kernel
theorem test_wellFormed_learned_vid : WellFormed (.learnedEntryAgeOut 0 1 4096) = false := by decide +kernel
theorem test_wellFormed_flash : WellFormed (.spimXipCopy 0 0 (zeros 4097)) = false := by decide +kernel

/-! The spec's worked examples. -/

/-- 04, the example after R123: grey 20, 2 and 1 of CH_3 at six periods a frame. -/
theorem test_grey_scale_bottom : periodTimes 6 10 3 120 = [20, 20, 20, 20, 20, 20] ∧ periodTimes 6 10 3 12 = [0, 0, 0, 12, 0, 0]
    ∧ dither (6 * 256) 0 10 = (0, 6 * 256) ∧ dither (6 * 256) (6 * 256) 10 = (12, 0) := by decide +kernel

/-- 04, the example after R131: CH_5, m = 16, t = 1,000. -/
theorem test_spread_of_ch5 : spreadPulses 0 65536 16 10 5 1000
    = (List.range 16).map fun w => (2560 + 4096 * w, if w % 2 = 0 then 63 else 62) := by decide +kernel

def oneSite (c cur bins : Nat) : PlaceItem := ⟨[⟨c, 0, 0, false, cur, 0, 1024 * bins⟩], 1024 * bins, (0, 65536)⟩

/-- 04, Table 4.5: its first two channels. -/
theorem test_levelling_table_4_5 :
    (placeAll 1024 0 [oneSite 0 30 40, oneSite 1 30 30]).1.map (fun p => (p.1.low, p.2 / 1024)) = [(0, 0), (1, 34)] := by decide +kernel

/-- 04, the example of R141: regulated 480 mA, styling 960 mA and 15 mA in row 2, against 1,200 mA. -/
theorem test_row_over_budget :
    rowFactor 1024 1200 [⟨2, true, 480, [(32808, 16244)]⟩, ⟨2, false, 960, [(32808, 16244)]⟩, ⟨2, false, 15, [(32808, 12000)]⟩] 2 = some (720, 975)
    ∧ 4095 * 720 / 975 = 3024 := by decide +kernel

def breathe : BitVec 64 := 0xFFFF0BB8B2000000

/-- 06, Table 6.13: the breathing marker. -/
theorem test_breathing_marker : durFrames breathe 3932160 = 763
    ∧ keyOut 6554 (kfLevel breathe) (kfCurve breathe) 191 763 = 36105 := by decide +kernel

/-- 07, Table 7.11: the forward-voltage temperature of one sample of 12,208.5 mV less 0.23 mV, and the amplitude. -/
theorem test_lamp_temperature_chain :
    forwardT { Site.init with vSum := 99987615 - 1920, vN := 1, cal := 0x3390E9BC20E10800 } = some 1792
    ∧ splitProduct 40000 88348 100000 = (3618, (40000, 65535)) := by decide +kernel

/-- 09, the example of R264: factors of a ZLK8 at step 9. -/
theorem test_governor_step_9 : decideFactors ((List.range 16).map fun j => 1500 * (j + 1)) ((List.range 16).map fun j => 250 * (j + 1)) 300 8425 25 = (1024, 2176, false)
    ∧ decideFactors ((List.range 16).map fun j => 1500 * (j + 1)) ((List.range 16).map fun j => 250 * (j + 1)) 300 6550 25 = (1024, 256, false) := by decide +kernel

/-- 12, Table 12.3: three 12-bit words, and the reset at 2,180 ns. -/
def threeWords : Xfer := ⟨0, 44, 2, false, [1, 2, 3], [4, 0xA5C, 6], none, 0, true, 0x09030201, 0x85800000⟩
theorem test_transfer_table_12_3 : firstEdge threeWords = 200 ∧ wordStride threeWords = 1250 ∧ lastEdge threeWords = 3850 ∧ xferEnd threeWords = 4000
    ∧ sampled threeWords 2180 = (1, 8) ∧ rxPart threeWords 1 8 = 0xA5 := by decide +kernel

/-- 17, the example of CFG_WRITE: LIMIT 250 is a configuration error, and GOV_CTL is unchanged. -/
def limitWrite (limit : Byte) : Host.Outcome State Fault Refusal := exec (.cfgWrite 10000000000 4)
  (call 4 0x0A11 [0x02, 0x00, 0xFF, 0x01, 0x00, 0x00, 0x0A, limit] rdy)
def outBytes (o : Host.Outcome State Fault Refusal) : Option (Word × List (Nat × Nat)) := match o with
  | .next u => some (reg u yardDie 2, (getMbx u 4).replies.map fun r => (r.tag, r.code))
  | _ => none
theorem test_cfgWrite_limit_refused : outBytes (limitWrite 0xFA) = some (reg rdy yardDie 2, [(9, 0x0B)]) := by decide +kernel

/-- 12, Tables 12.1 and 12.9: SPIM_0's lines at rest, in a transfer and unpowered. -/
theorem test_io_lines : (List.range 4).map (ioLine rdy) = [.low, .released, .high, .high]
    ∧ (List.range 4).map (ioLine (setSpim 0 { getSpim rdy 0 with xfer := some threeWords } rdy)) = [.data, .released, .high, .high]
    ∧ (List.range 4).map (ioLine State.reset) = List.replicate 4 .unpowered := by decide +kernel

/-- 00, the example of R5: a command that names a shed that the family member lacks. -/
theorem test_absent_shed : (match exec (.freeRunMark 0 4) { State.reset with variant := .zlk4 } with | .fault f => decide (f = .absentShed 4) | _ => false) = true := by
  decide +kernel

end Sys2Proof.Tests
end

section
/-! The block (00, 01). What a command answers is `exec_answers`; what every next state keeps is `after_pending`, `after_variant`
and `after_now`. Here the two meet: a command faults exactly on an absent shed, and a queue of present dies runs on. -/

namespace Sys2Proof.Machine

open Sys2Proof

/-! What a command answers, by the die that it names. -/

theorem onPresentDie_of_shedOf_none {s : State} {c : Instr} (hc : c.shedOf = none) : onPresentDie s c = true := by
  simp [onPresentDie, hc]

theorem onPresentDie_of_shedOf_some {s : State} {c : Instr} {k : Nat} (hc : c.shedOf = some k) :
    onPresentDie s c = isPresent s k := by
  simp [onPresentDie, hc]

/-- The two answers of a command: its meaning on a present die, and the fault of the absent shed that it names. -/
theorem exec_cases (c : Instr) (s : State) :
    (onPresentDie s c = true ∧ Follows s (exec c s))
      ∨ (onPresentDie s c = false ∧ ∃ k, c.shedOf = some k ∧ exec c s = .fault (.absentShed k)) := by
  have h := exec_answers c s
  cases hc : c.shedOf with
  | none =>
    rw [hc] at h
    exact .inl ⟨onPresentDie_of_shedOf_none hc, h⟩
  | some k =>
    rw [hc] at h
    rw [onPresentDie_of_shedOf_some hc]
    rcases h with ⟨hk, hf⟩ | ⟨hk, hf⟩
    · exact .inl ⟨hk, hf⟩
    · exact .inr ⟨hk, k, rfl, hf⟩

theorem exec_follows_of_onPresentDie {c : Instr} {s : State} (h : onPresentDie s c = true) : Follows s (exec c s) := by
  rcases exec_cases c s with ⟨_, hf⟩ | ⟨ha, _⟩
  · exact hf
  · rw [h] at ha; exact absurd ha (by decide)

theorem exec_fault_of_absentDie {c : Instr} {s : State} (h : onPresentDie s c = false) :
    ∃ k, c.shedOf = some k ∧ exec c s = .fault (.absentShed k) := by
  rcases exec_cases c s with ⟨hp, _⟩ | ⟨_, hf⟩
  · rw [h] at hp; exact absurd hp (by decide)
  · exact hf

theorem exec_next_follows {c : Instr} {s u : State} (h : exec c s = .next u) : Follows s (.next u) := by
  rcases exec_cases c s with ⟨_, hf⟩ | ⟨_, k, _, hf⟩
  · rwa [h] at hf
  · rw [h] at hf; cases hf

/-! What the next state keeps. -/

/-- Whatever the meaning and its instant: the queue's rest and the family member stay, and the clock does not go back. -/
theorem Follows.keeps {s u : State} (h : Follows s (.next u)) :
    u.pending = s.pending ∧ u.variant = s.variant ∧ s.now ≤ u.now := by
  obtain ⟨t, f, hu⟩ := h
  cases hu
  refine ⟨after_pending t f s, after_variant t f s, ?_⟩
  rw [after_now]
  exact Nat.le_max_left s.now t

/-! Which dies exist rests on the family member alone (00, Table 0.1). -/

theorem isPresent_congr {s u : State} (h : u.variant = s.variant) (k : Nat) : isPresent u k = isPresent s k := by
  unfold isPresent nSheds
  rw [h]

theorem onPresentDie_congr {s u : State} (h : u.variant = s.variant) : onPresentDie u = onPresentDie s := by
  funext c
  cases hc : c.shedOf with
  | none => rw [onPresentDie_of_shedOf_none hc, onPresentDie_of_shedOf_none hc]
  | some k => rw [onPresentDie_of_shedOf_some hc, onPresentDie_of_shedOf_some hc, isPresent_congr h]

theorem queueSafe_congr {s u : State} (hp : u.pending = s.pending) (hv : u.variant = s.variant) : queueSafe u = queueSafe s := by
  unfold queueSafe
  rw [hp, onPresentDie_congr hv]

/-- A safe queue with a front command: the command names a present die, and the queue's rest is safe. -/
theorem queueSafe_cons {s : State} {c : Instr} {r : List Instr} (h : s.pending = c :: r) :
    queueSafe s = true ↔ onPresentDie { s with pending := r } c = true ∧ queueSafe { s with pending := r } = true := by
  have hd : onPresentDie { s with pending := r } = onPresentDie s := onPresentDie_congr rfl
  simp [queueSafe, hd, h]

theorem step_of_pending_nil {s : State} (h : s.pending = []) : step s = .next s := by
  simp only [step, h]

theorem step_of_pending_cons {s : State} {c : Instr} {r : List Instr} (h : s.pending = c :: r) :
    step s = exec c { s with pending := r } := by
  simp only [step, h]

/-! The statements. -/

/-- Settles O6: every next state follows a meaning, and what follows a meaning keeps all three. -/
theorem commandsKeepQueueVariantAndClock : Obligations.CommandsKeepQueueVariantAndClock :=
  fun _ _ _ h => (exec_next_follows h).keeps

/-- Settles O7, by the die that the command names. -/
theorem faultsExactlyOnAbsentSheds : Obligations.FaultsExactlyOnAbsentSheds := by
  intro c s
  refine ⟨fun hp => ?_, exec_fault_of_absentDie⟩
  obtain ⟨t, f, hu⟩ := exec_follows_of_onPresentDie hp
  exact ⟨after t f s, hu⟩

/-- Settles O8: an empty queue idles; a front command on a present die answers a next state, which keeps the queue's rest and the
family member. -/
theorem safeQueuesKeepRunning : Obligations.SafeQueuesKeepRunning := by
  intro s hs
  cases hq : s.pending with
  | nil => exact ⟨s, step_of_pending_nil hq, hs⟩
  | cons c r =>
    obtain ⟨hc, hr⟩ := (queueSafe_cons hq).mp hs
    obtain ⟨u, hu⟩ := (faultsExactlyOnAbsentSheds c _).1 hc
    obtain ⟨hp, hv, _⟩ := commandsKeepQueueVariantAndClock c _ u hu
    refine ⟨u, (step_of_pending_cons hq).trans hu, ?_⟩
    rw [queueSafe_congr hp hv]
    exact hr

end Sys2Proof.Machine
end

section
/-! Packets on a die link (01, R34, R35): a packet that an end takes to send waits there or is outstanding, until it is acknowledged. -/

namespace Sys2Proof.Machine

open Sys2Proof

/-- Packet `p` waits or is outstanding at an end; `sentOn` says this of an end of a link. -/
def LinkEnd.carries (e : LinkEnd) (p : Packet) : Prop := p ∈ e.waiting ∨ ∃ o ∈ e.out, o.pkt = p

theorem sentOn_iff {s : State} {k : Nat} {y : Bool} {p : Packet} : sentOn s k y p ↔ (getEnd s k y).carries p := Iff.rfl

/-- The packet taken and the rest are what waited. -/
theorem mem_of_takeClass {c : Nat} {l r : List Packet} {p q : Packet} (h : takeClass c l = some (q, r)) (hp : p ∈ l) : p = q ∨ p ∈ r := by
  induction l generalizing r with
  | nil => cases hp
  | cons a l ih =>
    unfold takeClass at h
    split at h
    · obtain ⟨rfl, rfl⟩ : a = q ∧ l = r := by simpa using h
      exact List.mem_cons.mp hp
    · obtain ⟨⟨q', r'⟩, h', he⟩ := Option.map_eq_some_iff.mp h
      obtain ⟨rfl, rfl⟩ : q' = q ∧ a :: r' = r := by simpa using he
      rcases List.mem_cons.mp hp with rfl | hp
      · exact .inr (List.mem_cons_self ..)
      · exact (ih h' hp).imp_right (List.mem_cons_of_mem _)

theorem mem_of_nextPacket {l r : List Packet} {p q : Packet} (h : nextPacket l = some (q, r)) (hp : p ∈ l) : p = q ∨ p ∈ r := by
  simp only [nextPacket, Option.orElse_eq_or, Option.or_eq_some_iff] at h
  rcases h with h | ⟨-, h | ⟨-, h⟩⟩ <;> exact mem_of_takeClass h hp

/-- The lane takes packets from those that wait to those outstanding. -/
theorem carries_pump (now fuel : Nat) {e : LinkEnd} {p : Packet} (h : e.carries p) : (pump now fuel e).carries p := by
  induction fuel generalizing e with
  | zero => exact h
  | succ f ih =>
    unfold pump
    split
    · exact h
    · split
      · exact h
      · rename_i q r hn
        refine ih ?_
        rcases h with hw | ⟨o, ho, rfl⟩
        · rcases mem_of_nextPacket hn hw with rfl | hr
          · exact .inr ⟨_, List.mem_append_right _ (List.mem_singleton_self _), rfl⟩
          · exact .inl hr
        · exact .inr ⟨o, List.mem_append_left _ ho, rfl⟩

theorem carries_send (now : Nat) (p : Packet) (e : LinkEnd) : (e.send now p).carries p :=
  carries_pump now 8 (.inl (List.mem_append_right _ (List.mem_singleton_self p)))

/-! What a packet sent on a link leaves of the links. -/

theorem getLink_congr {s u : State} (h : u.links = s.links) (k : Nat) : getLink u k = getLink s k := by unfold getLink; rw [h]

theorem getEnd_congr {s u : State} (h : u.links = s.links) (k : Nat) (y : Bool) : getEnd u k y = getEnd s k y := by
  unfold getEnd; rw [getLink_congr h]

theorem getEnd_setEnd_self (k : Nat) (y : Bool) (e : LinkEnd) (s : State) : getEnd (setEnd k y e s) k y = e := by
  cases y <;> simp [getEnd, setEnd, updLink]

theorem getEnd_setEnd_across (k : Nat) (y : Bool) (e : LinkEnd) (s : State) : getEnd (setEnd k y e s) k (!y) = getEnd s k (!y) := by
  cases y <;> simp [getEnd, setEnd, updLink]

theorem getLink_sendPkt_other {j k : Nat} (h : j ≠ k) (y : Bool) (p : Packet) (s : State) : getLink (sendPkt k y p s) j = getLink s j := by
  unfold sendPkt
  split
  · rfl
  · exact getLink_setLink_other s _ h

theorem getEnd_sendPkt_across (k : Nat) (y : Bool) (p : Packet) (s : State) : getEnd (sendPkt k y p s) k (!y) = getEnd s k (!y) := by
  unfold sendPkt
  split
  · rfl
  · exact getEnd_setEnd_across k y _ s

/-- On a trained link a packet is sent. -/
theorem sentOn_sendPkt {k : Nat} {s : State} (h : (getLink s k).trained = true) (y : Bool) (p : Packet) : sentOn (sendPkt k y p s) k y p := by
  rw [sentOn_iff]
  unfold sendPkt
  rw [h, if_neg (by decide), getEnd_setEnd_self]
  exact carries_send _ _ _

theorem sentOn_congr {s u : State} (hl : u.links = s.links) {k : Nat} {y : Bool} {p : Packet} (h : sentOn s k y p) : sentOn u k y p := by
  rw [sentOn_iff] at h ⊢
  rw [getEnd_congr hl]
  exact h

end Sys2Proof.Machine
end

section
/-! The pattern engines of a shed (06): what the FLOW of a keyframe, the end of a PHASE delay and the end of a fade make of an engine,
and that the event of one engine changes that engine alone. -/

namespace Sys2Proof.Machine

open Sys2Proof

/-! One engine. -/

/-- The engine at keyframe `q` with pass counters `ps`, entered at the next mark, with the level of R175 that the keyframe of word `w` leaves. -/
def Engine.onward (w : DWord) (q : Nat) (ps : Table Nat) (g : Engine) : Engine :=
  { g with key := q, d := 0, j := 0, ended := false, passes := ps, level := if kfCurve w = 3 then g.l0 else kfLevel w }

section
variable {m : Img} {e : Nat} {g : Engine}

theorem keyFlow_next (hf : kfFlow (keyframe m e g.key) = 0) (hk : g.key + 1 < pgKeys m e) :
    keyFlow m e g = g.onward (keyframe m e g.key) (g.key + 1) g.passes := by
  unfold keyFlow
  simp only [hf]
  exact if_pos hk

theorem keyFlow_last (hf : kfFlow (keyframe m e g.key) = 0) (hk : pgKeys m e ≤ g.key + 1) : keyFlow m e g = endProgram m e g := by
  unfold keyFlow
  simp only [hf]
  exact if_neg (Nat.not_lt.mpr hk)

theorem keyFlow_loop (hf : kfFlow (keyframe m e g.key) = 1) (hn : passLeft (keyframe m e g.key) g ≠ 0) :
    keyFlow m e g = g.onward (keyframe m e g.key) (kfLoop (keyframe m e g.key))
      (Table.put 0 g.passes g.key (passLeft (keyframe m e g.key) g)) := by
  unfold keyFlow
  simp only [hf]
  exact if_neg hn

theorem keyFlow_loop_over (hf : kfFlow (keyframe m e g.key) = 1) (hn : passLeft (keyframe m e g.key) g = 0) (hk : g.key + 1 < pgKeys m e) :
    keyFlow m e g = g.onward (keyframe m e g.key) (g.key + 1) (Table.put 0 g.passes g.key (kfCount (keyframe m e g.key) + 1)) := by
  unfold keyFlow
  simp only [hf]
  exact (if_pos hn).trans (if_pos hk)

theorem keyFlow_goto (hf : kfFlow (keyframe m e g.key) = 2) :
    keyFlow m e g = g.onward (keyframe m e g.key) (kfLoop (keyframe m e g.key)) g.passes := by
  unfold keyFlow
  simp only [hf]
  rfl

theorem keyFlow_end (hf : 3 ≤ kfFlow (keyframe m e g.key)) : keyFlow m e g = endProgram m e g := by
  unfold keyFlow
  obtain ⟨n, hn⟩ := Nat.exists_eq_add_of_le' hf
  simp only [hn]

theorem keyEnd_of_due (h : keyDue g = true) : (keyEnd m e g).1 = keyFlow m e g := by
  unfold keyEnd
  rw [if_pos h]

/-- After the delay, keyframe 0 is entered and its frame 0 evaluated (R177, R181). -/
theorem phaseEnd_enter {tf : Nat} (h : phaseDue g = true) (hd : g.d = 0) :
    phaseEnd m e tf g = evalFrame m e (enterKey m e tf { g with inDelay := false, ended := false }) :=
  (if_pos h).trans (if_pos hd)

theorem phaseEnd_next {tf : Nat} (h : phaseDue g = true) (hd : g.d ≠ 0) :
    phaseEnd m e tf g = evalFrame m e { g with inDelay := false, ended := false, j := g.j + 1 } :=
  (if_pos h).trans (if_neg hd)

theorem fadeEndOp_of_due (h : fadeDue g = true) : fadeEndOp g = { g with st := .idle, ended := false, level := 0 } := if_pos h

theorem running_of_phaseDue (h : phaseDue g = true) : g.st = .running := by
  simp only [phaseDue, Bool.and_eq_true, decide_eq_true_eq] at h
  exact h.1.1

/-! Nothing is due at an engine that a shed does not list. -/

theorem ne_init_of_keyDue (h : keyDue g = true) : g ≠ Engine.init := by
  rintro rfl
  exact absurd h (by decide)

theorem ne_init_of_phaseDue (h : phaseDue g = true) : g ≠ Engine.init := by
  rintro rfl
  exact absurd h (by decide)

theorem ne_init_of_fadeDue (h : fadeDue g = true) : g ≠ Engine.init := by
  rintro rfl
  exact absurd h (by decide)

end

/-! An event of a shed. -/

/-- What a command of a present shed leaves is what its meaning leaves, if that touches neither modes nor supplies. -/
theorem happens_on_shed {c : Instr} {t k : Nat} {l : List StatePart} {s : State} {f : State → State} {eff : State → State → Prop}
    (hc : exec c s = actOn k t f s) (hk : isPresent s k = true) (hl : leaves l (atTime t s) (f (atTime t s))) (hp : StatePart.power ∉ l)
    (he : eff (atTime t s) (after t f s)) : happens c t l s eff :=
  ⟨after t f s, hc.trans (if_pos hk), changesOnly_of_leaves hl hp, he⟩

theorem getEngine_setEngine_self (e : Nat) (g : Engine) (d : Shed) : getEngine (setEngine e g d) e = g := Table.get_put_self ..

/-- A listed engine changes, and its shed with it. -/
theorem onEngine_of_ne_init {k e : Nat} {f : Img → Nat → Engine → Engine} {s : State} (h : getEngine (getShed s k) e ≠ Engine.init) :
    onEngine k e f s =
      setShed k (setEngine e (f (getShed s k).front (shedInterval (getShed s k)) (getEngine (getShed s k) e)) (getShed s k)) s := by
  unfold onEngine
  refine if_neg fun hn => h ?_
  unfold getEngine Table.get
  rw [Option.isNone_iff_eq_none.mp hn]
  rfl

/-- The event of a listed engine makes of it what its meaning `f` makes, and changes nothing else of the block. -/
theorem happens_onEngine {c : Instr} {t k e : Nat} {s : State} {f : Img → Nat → Engine → Engine}
    (hc : exec c s = actOn k t (onEngine k e f) s) (hk : isPresent s k = true) (hg : getEngine (getShed s k) e ≠ Engine.init) :
    happens c t [.sheds] s fun b u => elsewhere getShed b u k
      ∧ getEngine (getShed u k) e = f (getShed s k).front (shedInterval (getShed s k)) (getEngine (getShed s k) e)
      ∧ getShed u k = setEngine e (getEngine (getShed u k) e) (getShed s k) := by
  have hx := onEngine_of_ne_init (s := atTime t s) (f := f) hg
  have hs := after_sheds t (onEngine k e f) s
  rw [hx] at hs
  have hu := getShed_congr hs
  refine happens_on_shed hc hk (by rw [hx]; exact setShed_leaves _ _ _) (by decide) ⟨fun j hj => ?_, ?_⟩
  · rw [hu, getShed_setShed_other _ _ hj]
  · rw [hu, getShed_setShed_self, getEngine_setEngine_self]
    exact ⟨rfl, rfl⟩

theorem exec_keyframeEnd (t : Nat) (k : Fin 7) (e : Fin 16) (s : State) :
    exec (.keyframeEnd t k e) s = actOn k t (onEngine k e fun m _ g => (keyEnd m e g).1) s := rfl

theorem exec_phaseDelayEnd (t : Nat) (k : Fin 7) (e : Fin 16) (s : State) :
    exec (.phaseDelayEnd t k e) s = actOn k t (onEngine k e fun m tf g => phaseEnd m e tf g) s := rfl

theorem exec_fadeEnd (t : Nat) (k : Fin 7) (e : Fin 16) (s : State) :
    exec (.fadeEnd t k e) s = actOn k t (onEngine k e fun _ _ g => fadeEndOp g) s := rfl

theorem exec_engineCheckpoint (t : Nat) (k : Fin 7) (s : State) : exec (.engineCheckpoint t k) s = actOn k t (checkpoint k) s := rfl

/-! The checkpoints (06, R193). -/

/-- What the shed reports of its engines: a checkpoint of each that is not idle. -/
def checkpointsOf (d : Shed) : Packet :=
  .event (.checkpoints d.frame ((d.engines.filter fun p => p.2.st ≠ .idle).map fun p => checkpointOf p.1 d.frame p.2))

theorem checkpoint_of_joined {k : Nat} {s : State} (hf : (getShed s k).frame.toNat % 16 = 0) (ht : (getLink s k).trained = true)
    (hj : (getShed s k).mode = .joined) (hr : (getShed s k).resync = false) (hp : s.power.fail = none) :
    checkpoint k s = sendPkt k false (checkpointsOf (getShed s k)) s := by
  unfold checkpoint
  exact if_neg (by simp [hf, ht, hj, hr, hp])

/-- A packet that a shed sends as the whole of its command: it is on its way, and the other links and the yard's end are as before. -/
theorem happens_sendPkt {c : Instr} {t k : Nat} {s : State} {f : State → State} {p : Packet} (hc : exec c s = actOn k t f s)
    (hk : isPresent s k = true) (hf : f (atTime t s) = sendPkt k false p (atTime t s)) (ht : (getLink s k).trained = true) :
    happens c t [.links] s fun b u => elsewhere getLink b u k ∧ getEnd u k true = getEnd b k true ∧ sentOn u k false p := by
  have hl := after_links t f s
  rw [hf] at hl
  refine happens_on_shed hc hk (by rw [hf]; exact sendPkt_leaves _ _ _ _) (by decide) ⟨fun j hj => ?_, ?_, ?_⟩
  · rw [getLink_congr hl, getLink_sendPkt_other hj]
  · rw [getEnd_congr hl]
    exact getEnd_sendPkt_across k false p _
  · exact sentOn_congr hl (sentOn_sendPkt (s := atTime t s) ht false p)

/-- What happens leaves what follows from it. -/
theorem happens_mono {c : Instr} {t : Nat} {l : List StatePart} {s : State} {eff eff' : State → State → Prop} (h : happens c t l s eff)
    (hm : ∀ b u, eff b u → eff' b u) : happens c t l s eff' := by
  obtain ⟨u, hu, hc, he⟩ := h
  exact ⟨u, hu, hc, hm _ u he⟩

/-- Settles O56: an engine's event by what is due at it, and the checkpoints by the packet that the shed's end then carries. -/
theorem engineEventsComplete : Obligations.EngineEventsComplete := by
  unfold Obligations.EngineEventsComplete
  intro t s k hk
  refine ⟨fun e => ⟨fun h => ?keyframe, fun h => ?delay, fun h => ?fade⟩, fun hf ht hj hr hp => ?checkpoints⟩
  case keyframe =>
    refine happens_mono (happens_onEngine (exec_keyframeEnd t k e s) hk (ne_init_of_keyDue h)) fun b u ⟨ho, hg, hs⟩ => ⟨ho, ?_, hs⟩
    rw [hg, keyEnd_of_due h]
    exact ⟨keyFlow_next, keyFlow_last, keyFlow_loop, keyFlow_loop_over, keyFlow_goto, keyFlow_end⟩
  case delay =>
    refine happens_mono (happens_onEngine (exec_phaseDelayEnd t k e s) hk (ne_init_of_phaseDue h)) fun b u ⟨ho, hg, hs⟩ => ⟨ho, ?_, hs⟩
    have hst := running_of_phaseDue h
    by_cases hd : (getEngine (getShed s k) e).d = 0
    · rw [hg, phaseEnd_enter h hd]
      exact ⟨hst, rfl, rfl, fun _ => ⟨rfl, rfl, rfl⟩, fun hn => absurd hd hn⟩
    · rw [hg, phaseEnd_next h hd]
      exact ⟨hst, rfl, rfl, fun h0 => absurd h0 hd, fun _ => ⟨rfl, rfl, rfl⟩⟩
  case fade =>
    refine happens_mono (happens_onEngine (exec_fadeEnd t k e s) hk (ne_init_of_fadeDue h)) fun b u ⟨ho, hg, hs⟩ => ⟨ho, ?_, hs⟩
    rw [hg]
    exact fadeEndOp_of_due h
  case checkpoints =>
    exact happens_sendPkt (exec_engineCheckpoint t k s) hk (checkpoint_of_joined (s := atTime t s) hf ht hj hr hp) ht

end Sys2Proof.Machine
end

section
/-! The commands of the pattern engines (06, R186 to R193, R198; 17, Table 17.2): what each answers and does once its checks have passed. -/

namespace Sys2Proof.Machine

open Sys2Proof

/-! Controls and triggers. -/

theorem isPresent_of_absentEngine {s : State} {l : List Nat} (h : absentEngine s l = false) : ∀ g ∈ l, isPresent s (g / 16) = true := by
  intro g hg
  simpa using List.any_eq_false.mp h g hg

theorem absentEngine_of_isPresent {s : State} {l : List Nat} (h : ∀ g ∈ l, isPresent s (g / 16) = true) : absentEngine s l = false :=
  List.any_eq_false.mpr fun g hg => by simp [h g hg]

theorem raiseTrigger_of_valid {n : Nat} {m : Word} {s : State} (hv : trigValid (trigEntry s n) = true) (hs : safeOn s = false) :
    raiseTrigger n m s = sendControls (trigEngines (trigEntry s n)) (trigAct (trigEntry s n)) (trigImm (trigEntry s n)) m s := by
  simp [raiseTrigger, hv, hs]

theorem raiseTrigger_of_invalid {n : Nat} {m : Word} {s : State} (hv : trigValid (trigEntry s n) = false) :
    raiseTrigger n m s = setRegf yardDie R.trgSt 5 0 n (bumpReg yardDie R.trgSt 31 16 s) := by
  simp [raiseTrigger, hv]

theorem raiseTrigger_leaves (n : Nat) (m : Word) (s : State) : leaves [.pat, .links, .regs] s (raiseTrigger n m s) :=
  leaves_ite (leaves_chain (bumpReg_leaves _ _ _ _ s) (setRegf_leaves _ _ _ _ _ _))
    (leaves_ite (leaves_refl _ s) (leaves_wider (sendControls_leaves _ _ _ _ s)))

/-- The number of a trigger that is not valid stands in TRG_ST (06, R188). -/
theorem yf_raiseTrigger_of_invalid {n : Nat} {m : Word} {s : State} (hv : trigValid (trigEntry s n) = false) (hn : n ≤ 63) :
    yf (raiseTrigger n m s) R.trgSt 5 0 = n := by
  rw [raiseTrigger_of_invalid hv]
  unfold yf
  rw [regf_setRegf _ _ _ _ _ _ (by decide) (by decide)]
  exact Nat.mod_eq_of_lt (by omega)

/-! The commands' own parts, once their checks pass. -/

theorem controlBody_ok {a : PatAct} {e : Entry} {s : State} (ha : absentEngine s (maskList e.payload 0 112) = false) (hs : safeOn s = false) :
    controlBody a e s =
      (rOk (le 4 (atMark s ((u8 e.payload 14).testBit 0) (BitVec.ofNat 32 (u32 e.payload 16))).toNat),
        sendControls (maskList e.payload 0 112) a ((u8 e.payload 14).testBit 1)
          (atMark s ((u8 e.payload 14).testBit 0) (BitVec.ofNat 32 (u32 e.payload 16))) s) := by
  simp [controlBody, ha, hs]

theorem triggerBody_ok {e : Entry} {s : State} (hn : u8 e.payload 0 ≤ 63) (hs : safeOn s = false) :
    triggerBody e s =
      (rOk (le 4 (atMark s ((u8 e.payload 1).testBit 0) (BitVec.ofNat 32 (u32 e.payload 4))).toNat),
        raiseTrigger (u8 e.payload 0) (atMark s ((u8 e.payload 1).testBit 0) (BitVec.ofNat 32 (u32 e.payload 4))) s) := by
  simp [triggerBody, hs, Nat.not_lt.mpr hn]

theorem engineResetBody_ok {e : Entry} {s : State} (ha : absentEngine s (maskList e.payload 0 112) = false) :
    engineResetBody e s = (rOk (le 4 (controlMark s).toNat), sendControls (maskList e.payload 0 112) .reset false (controlMark s) s) := by
  simp [engineResetBody, ha]

/-- PAT_STATUS names between one and fourteen engines, all of present sheds. -/
theorem engineStatusBody_ok {e : Entry} {s : State} (h1 : 1 ≤ u8 e.payload 1) (h14 : u8 e.payload 1 ≤ 14)
    (hg : u8 e.payload 0 + u8 e.payload 1 ≤ 112) (hp : ∀ i < u8 e.payload 1, isPresent s ((u8 e.payload 0 + i) / 16) = true) :
    engineStatusBody e s = (rOk ((List.range (u8 e.payload 1)).flatMap fun i =>
      le 4 (peSt (getEngine (getShed s ((u8 e.payload 0 + i) / 16)) ((u8 e.payload 0 + i) % 16))).toNat), s) := by
  have ha : absentEngine s ((List.range (u8 e.payload 1)).map (u8 e.payload 0 + ·)) = false :=
    absentEngine_of_isPresent fun g hg => by
      obtain ⟨i, hi, rfl⟩ := List.mem_map.mp hg
      exact hp i (List.mem_range.mp hi)
  unfold engineStatusBody
  refine if_neg ?_
  simp only [ha, Bool.or_false, Bool.or_eq_true, decide_eq_true_eq]
  omega

/-! PAT_LOAD. -/

/-- The pages that PAT_LOAD names: the pattern page of each named engine, and the trigger page where it asks for it. -/
def loadPages (p : List Byte) : List Nat :=
  ((maskList p 0 112).map (0x50 + · / 2)).eraseDups ++ (if (u8 p 14).testBit 0 then [0x88] else [])

/-- The checks of Table 6.11 pass: the pages are held and good, the engines present, and no SAFE fault or entry to Night Watch stands. -/
def loadFits (n : Nat) (e : Entry) (s : State) : Prop :=
  heldPages s n (loadPages e.payload) = loadPages e.payload
  ∧ (∀ g ∈ maskList e.payload 0 112, isPresent s (g / 16) = true)
  ∧ (∀ g ∈ maskList e.payload 0 112, progRsvd (blockWords s g) = false ∧ badProgram (blockWords s g) = false)
  ∧ ((u8 e.payload 14).testBit 0 = true →
    trigRsvd (readPage s 0x88 0 1048) = false ∧ badTrig (nSheds s) (readPage s 0x88 0 1048) = false)
  ∧ (∀ p ∈ loadPages e.payload, pageBad s p = false) ∧ safeOn s = false ∧ s.power.entry = none

/-- The commit that PAT_LOAD makes: the named programs, and the trigger area where it is named. -/
def loadCommit (n : Nat) (e : Entry) (s : State) : Commit :=
  { kind := .pattern (maskList e.payload 0 112) (if (u8 e.payload 14).testBit 0 then some (readPage s 0x88 0 1048) else none)
    sess := n, entry := e.id, tag := e.tag, frameId := 0, atFrame := none, checked := s.now
    edits := (maskList e.payload 0 112).map fun g => .prog g (blockWords s g), pages := loadPages e.payload }

/-- What PAT_LOAD leaves: its pages taken, and its commit among those that wait for a round. -/
def loadTaken (n : Nat) (e : Entry) (s : State) : State :=
  let u := pagesToDevice n (loadPages e.payload) s
  { u with scene := { u.scene with waiting := u.scene.waiting ++ [loadCommit n e s] } }

/-- A check of every block and, where the trigger area is named, of the area finds nothing. -/
theorem loadCheck_passes {l : List Nat} {f : Nat → List DWord} {bad : List DWord → Bool} {trig badArea : Bool}
    (hl : ∀ g ∈ l, bad (f g) = false) (ht : trig = true → badArea = false) :
    ((l.map fun g => (g, f g)).any (fun b => bad b.2) || (trig && badArea)) = false := by
  rw [Bool.or_eq_false_iff]
  refine ⟨List.any_eq_false.mpr fun b hb => ?_, ?_⟩
  · obtain ⟨g, hg, rfl⟩ := List.mem_map.mp hb
    simp [hl g hg]
  · cases trig with
    | false => rfl
    | true => exact ht rfl

theorem loadBody_ok {n : Nat} {e : Entry} {s : State} (h : loadFits n e s) : loadBody n e s = (.later, loadTaken n e s) := by
  obtain ⟨hh, hp, hb, ht, hg, hs, hw⟩ := h
  have habsent : ((maskList e.payload 0 112).any fun g => !isPresent s (g / 16)) = false := absentEngine_of_isPresent hp
  have hrsvd := loadCheck_passes (fun g hg => (hb g hg).1) fun h => (ht h).1
  have hbad := loadCheck_passes (fun g hg => (hb g hg).2) fun h => (ht h).2
  have hpages : (loadPages e.payload).any (pageBad s) = false := List.any_eq_false.mpr fun p h => by simp [hg p h]
  have hn : (pagesToDevice n (loadPages e.payload) s).now = s.now := pagesToDevice_leaves n (loadPages e.payload) s .clock (by decide)
  unfold loadPages at hh hpages hn
  unfold loadBody loadTaken loadCommit loadPages addCommit
  dsimp only
  rw [if_neg (by rw [hh]; exact fun h => h rfl), if_neg (by rw [habsent]; decide), if_neg (by rw [hrsvd]; decide), if_neg (by rw [hbad]; decide),
    if_neg (by rw [hpages]; decide), if_neg (by rw [hs]; decide), if_neg (by rw [hw]; decide), hh, hn, List.map_map, Function.comp_def]

theorem loadTaken_leaves (n : Nat) (e : Entry) (s : State) : leaves [.win, .scene] s (loadTaken n e s) :=
  leaves_chain (pagesToDevice_leaves n (loadPages e.payload) s) (put_scene _ _)

theorem loadTaken_waiting (n : Nat) (e : Entry) (s : State) : (loadTaken n e s).scene.waiting = s.scene.waiting ++ [loadCommit n e s] := by
  have hs : (pagesToDevice n (loadPages e.payload) s).scene = s.scene := pagesToDevice_leaves n (loadPages e.payload) s .scene (by decide)
  simp only [loadTaken, hs]

theorem takenPages_congr {b u v : State} {n : Nat} {ps : List Nat} (h : v.win = u.win) (hu : takenPages b u n ps) : takenPages b v n ps := by
  unfold takenPages at hu ⊢
  simp only [getOwn_congr h]
  exact hu

theorem patLoad_defers (t : Nat) (n : Fin 16) :
    defers (.patLoad t n) t n 0x0301 16 (fun p => u8 p 14 / 2 == 0 && u8 p 15 == 0) 2 (loadFits n) [.win, .scene] fun e b u =>
      u.scene.waiting = b.scene.waiting ++ [loadCommit n e b] ∧ takenPages b u n (loadPages e.payload) := by
  refine defers_of (fun e b => loadTaken n e b) (fun _ => rfl) (fun _ => rfl) (fun e s h => loadBody_ok h)
    (fun e s _ => loadTaken_leaves n e _) (by decide) (by decide) ?_
  rintro e s - u rfl
  have hp : (loadTaken n e (begun t n e s)).power = s.power := loadTaken_leaves n e _ .power (by decide)
  have hw := after_scene_same t (fun _ => loadTaken n e (begun t n e s)) s (·.waiting) (fun _ _ => rfl) fun hr => by rwa [hp] at hr
  exact ⟨hw.trans (loadTaken_waiting n e _), takenPages_congr (after_win t _ s) (pagesToDevice_taken n (loadPages e.payload) _)⟩

/-! The commands that send controls. -/

/-- A command that answers with a mark and sends controls of present engines for it keeps them for rejoins, and sends nothing else. -/
theorem controls_complete {c : Instr} {t n op len : Nat} {rsvd : List Byte → Bool} {priv : Nat} {guard : Entry → State → Prop}
    {lenf : List Byte → Nat} {body : Entry → State → Rep × State} {a : PatAct} {imm : Entry → Bool} {mark : Entry → State → Word}
    (hc : ∀ s, exec c s = act t (runJhp n op lenf rsvd priv body) s) (hlen : ∀ p, lenf p = len)
    (ha : ∀ e b, guard e b → absentEngine b (maskList e.payload 0 112) = false)
    (hb : ∀ e b, guard e b → body e b = (rOk (le 4 (mark e b).toNat), sendControls (maskList e.payload 0 112) a (imm e) (mark e b) b)) :
    completes c t n op len rsvd priv guard (fun e b => le 4 (mark e b).toNat) [.pat, .links] fun e b u =>
      u.pat.since = (maskList e.payload 0 112).foldl (fun l g => keepControl g ⟨g % 16, a, imm e, mark e b, 0⟩ l) b.pat.since
      ∧ u.links = (sendControls (maskList e.payload 0 112) a (imm e) (mark e b) b).links := by
  refine completes_of (fun e b => sendControls (maskList e.payload 0 112) a (imm e) (mark e b) b) hc hlen (fun e s hg => hb e _ hg)
    (fun e s _ => sendControls_leaves _ _ _ _ _) (by decide) (by decide) fun e s hg u hu => ⟨?_, reply_links hu⟩
  rw [reply_pat hu, sendControls_since _ _ _ _ _ (isPresent_of_absentEngine (ha e _ hg))]

/-- PAT_TRIGGER: a valid trigger's controls are sent and no register is written; the number of another is noted, and nothing sent. -/
theorem patTrigger_completes (t : Nat) (n : Fin 16) :
    completes (.patTrigger t n) t n 0x0304 8 (fun p => u8 p 1 / 2 == 0 && zeroAt 2 2 p) 1
      (fun e b => u8 e.payload 0 ≤ 63 ∧ safeOn b = false)
      (fun e b => le 4 (atMark b ((u8 e.payload 1).testBit 0) (BitVec.ofNat 32 (u32 e.payload 4))).toNat) [.pat, .links, .regs]
      (fun e b u => if trigValid (trigEntry b (u8 e.payload 0)) then
          u.regs = b.regs ∧ u.links = (sendControls (trigEngines (trigEntry b (u8 e.payload 0))) (trigAct (trigEntry b (u8 e.payload 0)))
            (trigImm (trigEntry b (u8 e.payload 0))) (atMark b ((u8 e.payload 1).testBit 0) (BitVec.ofNat 32 (u32 e.payload 4))) b).links
        else yf u R.trgSt 5 0 = u8 e.payload 0 ∧ u.links = b.links ∧ u.pat = b.pat) := by
  refine completes_of
    (fun e b => raiseTrigger (u8 e.payload 0) (atMark b ((u8 e.payload 1).testBit 0) (BitVec.ofNat 32 (u32 e.payload 4))) b)
    (fun _ => rfl) (fun _ => rfl) (fun e s hg => triggerBody_ok hg.1 hg.2) (fun e s _ => raiseTrigger_leaves _ _ _) (by decide) (by decide) ?_
  rintro e s ⟨hn, hs⟩ u hu
  generalize atMark _ _ _ = m at hu ⊢
  have hp : (raiseTrigger (u8 e.payload 0) m (begun t n e s)).power = s.power := raiseTrigger_leaves _ _ _ .power (by decide)
  have hr := reply_regs hu fun hx => by rwa [hp] at hx
  cases hv : trigValid (trigEntry (begun t n e s) (u8 e.payload 0)) with
  | true =>
    rw [raiseTrigger_of_valid hv hs] at hu hr
    exact ⟨hr.trans (sendControls_leaves _ _ _ _ _ .regs (by decide)), reply_links hu⟩
  | false =>
    refine ⟨(yf_congr hr _ _ _).trans (yf_raiseTrigger_of_invalid hv hn), ?_⟩
    rw [raiseTrigger_of_invalid hv] at hu
    exact ⟨by rw [reply_links hu, setRegf_links, bumpReg_links], by rw [reply_pat hu, setRegf_pat, bumpReg_pat]⟩

/-- Settles O18, command by command. -/
theorem patternCommandsComplete : Obligations.PatternCommandsComplete := by
  unfold Obligations.PatternCommandsComplete
  intro t n
  refine ⟨patLoad_defers t n, ?start, ?stop, ?reset, patTrigger_completes t n, ?status⟩
  case start =>
    exact controls_complete (fun _ => rfl) (fun _ => rfl) (fun e b hg => hg.1) fun e b hg => controlBody_ok hg.1 hg.2
  case stop =>
    exact controls_complete (fun _ => rfl) (fun _ => rfl) (fun e b hg => hg.1) fun e b hg => controlBody_ok hg.1 hg.2
  case reset =>
    exact controls_complete (imm := fun _ => false) (fun _ => rfl) (fun _ => rfl) (fun e b hg => hg) fun e b hg => engineResetBody_ok hg
  case status =>
    exact completes_of (fun _ b => b) (fun _ => rfl) (fun _ => rfl) (fun e s ⟨h1, h14, hg, hp⟩ => engineStatusBody_ok h1 h14 hg hp)
      (fun e s _ => leaves_refl _ _) (by decide) (by decide) fun _ _ _ _ _ => trivial

end Sys2Proof.Machine
end

section
/-! FAIL_N (08, R251). A step idles or runs a command, and what follows a command's meaning ends by driving FAIL_N (`after_failLevel`). -/

namespace Sys2Proof.Machine

open Sys2Proof

/-- What a step that answers a next state has done: idled on an empty queue, or run the front command with the queue's rest. -/
theorem step_next_cases {s u : State} (h : step s = .next u) :
    (s.pending = [] ∧ u = s) ∨ ∃ c r, s.pending = c :: r ∧ Follows { s with pending := r } (.next u) := by
  cases hq : s.pending with
  | nil =>
    rw [step_of_pending_nil hq] at h
    cases h
    exact .inl ⟨rfl, rfl⟩
  | cons c r =>
    rw [step_of_pending_cons hq] at h
    exact .inr ⟨c, r, rfl, exec_next_follows h⟩

/-- Whatever the meaning and its instant, and whatever the level before. -/
theorem failLevelTrue_of_follows {s u : State} (h : Follows s (.next u)) : failLevelTrue u := by
  obtain ⟨t, f, hu⟩ := h
  cases hu
  exact after_failLevel t f s

/-- Settles O4: an idle step leaves the state, in which the level is true by hypothesis, and a command's step ends by driving it. -/
theorem failLevelInvariant : Obligations.FailLevelInvariant := by
  intro s u hstep hlevel
  rcases step_next_cases hstep with ⟨hempty, rfl⟩ | ⟨c, r, _, hf⟩
  · exact hlevel.resolve_left fun hwaiting => hwaiting hempty
  · exact failLevelTrue_of_follows hf

end Sys2Proof.Machine
end
